-- ==== Sys2Proof/Word.lean ====
section
/-!
DEFINITION. The plain types of the aap-llvm core: bytes, words, register ids, the two lengths of an
instruction, the opcode tags and operand kinds of a decoded instruction (spec/10_state.md,
spec/30_encoding.md).
-/

namespace Sys2Proof

/-- An 8-bit byte of code or data memory (10_state.md R16, R17). -/
abbrev Byte := BitVec 8

/-- A 16-bit word: what a general register and the program counter hold (R10, R12). -/
abbrev Word := BitVec 16

/-- A register id: "a model's register index type is `Fin 64`" (R11). -/
abbrev Reg := Fin 64

/-- The two lengths of an instruction: the short (16-bit) and the long (32-bit) form (30_encoding.md R50). -/
inductive Form where
  | short
  | long
deriving DecidableEq, Repr

/-- The decoder's reported size beside a decode failure: 0 or 2 bytes (R51, 40_execution_cycle.md R93). -/
inductive FailSize where
  | size0
  | size2
deriving DecidableEq, Repr

/-- The opcode tag of a decoded instruction, one per mnemonic (30_encoding.md R71, 92_eei_decisions.md D25). -/
inductive Opcode where
  | nop | add | sub | and | or | xor | asr | lsl | lsr | mov | addi | subi | asri | lsli | lsri | movi
  | addc | subc | andi | ori | xori
  | ldb | ldbPostinc | ldbPredec | ldw | ldwPostinc | ldwPredec
  | stb | stbPostinc | stbPredec | stw | stwPostinc | stwPredec
  | bra | bal | beq | bne | blts | bgts | bltu | bgtu | jmp | jal
deriving DecidableEq, Repr

/-- One operand of a decoded instruction: "each operand one of {register id, signed immediate, unsigned
immediate}" (R71). -/
inductive Operand where
  | reg  (r : Reg)
  | simm (z : Int)
  | uimm (n : Nat)
deriving DecidableEq, Repr

end Sys2Proof
end

