-- ==== Sys2Proof/Syntax.lean ====
section
/-!
DEFINITION. The instructions of the aap-llvm core: one constructor per row of the opcode table, `S` for
the short and `L` for the long form of a mnemonic (spec/30_encoding.md R63 to R67). Operands are the
decoded ones (R71): register ids, unsigned immediates and signed offsets, in the order the formats list
them; a shift amount is the decoded amount, field + 1 (R60). WellFormed.lean says which operands a form
can carry.
-/

namespace Sys2Proof

/-- An instruction. The constructors follow the order of the opcode table. -/
inductive Instr where
  /-- NOP, short form `S_RI6` (41_system_nop.md R105). -/
  | nopS (rd : Reg) (cmd : Nat)
  /-- NOP, long form `L_RI12` (41_system_nop.md R105). -/
  | nopL (rd : Reg) (cmd : Nat)
  /-- ADD, short form `S_RRR` (43_arith.md R116). -/
  | addS (rd ra rb : Reg)
  /-- ADD, long form `L_RRR` (43_arith.md R116). -/
  | addL (rd ra rb : Reg)
  /-- SUB, short form `S_RRR` (43_arith.md R119). -/
  | subS (rd ra rb : Reg)
  /-- SUB, long form `L_RRR` (43_arith.md R119). -/
  | subL (rd ra rb : Reg)
  /-- AND, short form `S_RRR` (44_logic.md R125). -/
  | andS (rd ra rb : Reg)
  /-- AND, long form `L_RRR` (44_logic.md R125). -/
  | andL (rd ra rb : Reg)
  /-- OR, short form `S_RRR` (44_logic.md R126). -/
  | orS (rd ra rb : Reg)
  /-- OR, long form `L_RRR` (44_logic.md R126). -/
  | orL (rd ra rb : Reg)
  /-- XOR, short form `S_RRR` (44_logic.md R127). -/
  | xorS (rd ra rb : Reg)
  /-- XOR, long form `L_RRR` (44_logic.md R127). -/
  | xorL (rd ra rb : Reg)
  /-- ASR, short form `S_RRR` (45_shift.md R136). -/
  | asrS (rd ra rb : Reg)
  /-- ASR, long form `L_RRR` (45_shift.md R136). -/
  | asrL (rd ra rb : Reg)
  /-- LSL, short form `S_RRR` (45_shift.md R137). -/
  | lslS (rd ra rb : Reg)
  /-- LSL, long form `L_RRR` (45_shift.md R137). -/
  | lslL (rd ra rb : Reg)
  /-- LSR, short form `S_RRR` (45_shift.md R138). -/
  | lsrS (rd ra rb : Reg)
  /-- LSR, long form `L_RRR` (45_shift.md R138). -/
  | lsrL (rd ra rb : Reg)
  /-- MOV, short form `S_RR` (42_move.md R110). -/
  | movS (rd ra : Reg)
  /-- MOV, long form `L_RR` (42_move.md R110). -/
  | movL (rd ra : Reg)
  /-- ADDI, short form `S_RRI3` (43_arith.md R117). -/
  | addiS (rd ra : Reg) (imm : Nat)
  /-- ADDI, long form `L_RRI10` (43_arith.md R117). -/
  | addiL (rd ra : Reg) (imm : Nat)
  /-- SUBI, short form `S_RRI3` (43_arith.md R120). -/
  | subiS (rd ra : Reg) (imm : Nat)
  /-- SUBI, long form `L_RRI10` (43_arith.md R120). -/
  | subiL (rd ra : Reg) (imm : Nat)
  /-- ASRI, short form `S_RRSH3` (45_shift.md R139). -/
  | asriS (rd ra : Reg) (sh : Nat)
  /-- ASRI, long form `L_RRSH6` (45_shift.md R139). -/
  | asriL (rd ra : Reg) (sh : Nat)
  /-- LSLI, short form `S_RRSH3` (45_shift.md R140). -/
  | lsliS (rd ra : Reg) (sh : Nat)
  /-- LSLI, long form `L_RRSH6` (45_shift.md R140). -/
  | lsliL (rd ra : Reg) (sh : Nat)
  /-- LSRI, short form `S_RRSH3` (45_shift.md R141). -/
  | lsriS (rd ra : Reg) (sh : Nat)
  /-- LSRI, long form `L_RRSH6` (45_shift.md R141). -/
  | lsriL (rd ra : Reg) (sh : Nat)
  /-- MOVI, short form `S_RI6` (42_move.md R111). -/
  | moviS (rd : Reg) (imm : Nat)
  /-- MOVI, long form `L_RI16` (42_move.md R111). -/
  | moviL (rd : Reg) (imm : Nat)
  /-- ADDC, long form `L_RRR` (43_arith.md R118). -/
  | addcL (rd ra rb : Reg)
  /-- SUBC, long form `L_RRR` (43_arith.md R121). -/
  | subcL (rd ra rb : Reg)
  /-- ANDI, long form `L_RRI9` (44_logic.md R128). -/
  | andiL (rd ra : Reg) (imm : Nat)
  /-- ORI, long form `L_RRI9` (44_logic.md R129). -/
  | oriL (rd ra : Reg) (imm : Nat)
  /-- XORI, long form `L_RRI9` (44_logic.md R130). -/
  | xoriL (rd ra : Reg) (imm : Nat)
  /-- LDB, short form `S_LD` (46_load.md R146). -/
  | ldbS (rd ra : Reg) (off : Int)
  /-- LDB, long form `L_LD` (46_load.md R146). -/
  | ldbL (rd ra : Reg) (off : Int)
  /-- LDB_POSTINC, short form `S_LD` (46_load.md R148). -/
  | ldbPostincS (rd ra : Reg) (off : Int)
  /-- LDB_POSTINC, long form `L_LD` (46_load.md R148). -/
  | ldbPostincL (rd ra : Reg) (off : Int)
  /-- LDB_PREDEC, short form `S_LD` (46_load.md R150). -/
  | ldbPredecS (rd ra : Reg) (off : Int)
  /-- LDB_PREDEC, long form `L_LD` (46_load.md R150). -/
  | ldbPredecL (rd ra : Reg) (off : Int)
  /-- LDW, short form `S_LD` (46_load.md R147). -/
  | ldwS (rd ra : Reg) (off : Int)
  /-- LDW, long form `L_LD` (46_load.md R147). -/
  | ldwL (rd ra : Reg) (off : Int)
  /-- LDW_POSTINC, short form `S_LD` (46_load.md R149). -/
  | ldwPostincS (rd ra : Reg) (off : Int)
  /-- LDW_POSTINC, long form `L_LD` (46_load.md R149). -/
  | ldwPostincL (rd ra : Reg) (off : Int)
  /-- LDW_PREDEC, short form `S_LD` (46_load.md R151). -/
  | ldwPredecS (rd ra : Reg) (off : Int)
  /-- LDW_PREDEC, long form `L_LD` (46_load.md R151). -/
  | ldwPredecL (rd ra : Reg) (off : Int)
  /-- STB, short form `S_ST` (47_store.md R156). -/
  | stbS (rd : Reg) (off : Int) (ra : Reg)
  /-- STB, long form `L_ST` (47_store.md R156). -/
  | stbL (rd : Reg) (off : Int) (ra : Reg)
  /-- STB_POSTINC, short form `S_ST` (47_store.md R158). -/
  | stbPostincS (rd : Reg) (off : Int) (ra : Reg)
  /-- STB_POSTINC, long form `L_ST` (47_store.md R158). -/
  | stbPostincL (rd : Reg) (off : Int) (ra : Reg)
  /-- STB_PREDEC, short form `S_ST` (47_store.md R160). -/
  | stbPredecS (rd : Reg) (off : Int) (ra : Reg)
  /-- STB_PREDEC, long form `L_ST` (47_store.md R160). -/
  | stbPredecL (rd : Reg) (off : Int) (ra : Reg)
  /-- STW, short form `S_ST` (47_store.md R157). -/
  | stwS (rd : Reg) (off : Int) (ra : Reg)
  /-- STW, long form `L_ST` (47_store.md R157). -/
  | stwL (rd : Reg) (off : Int) (ra : Reg)
  /-- STW_POSTINC, short form `S_ST` (47_store.md R159). -/
  | stwPostincS (rd : Reg) (off : Int) (ra : Reg)
  /-- STW_POSTINC, long form `L_ST` (47_store.md R159). -/
  | stwPostincL (rd : Reg) (off : Int) (ra : Reg)
  /-- STW_PREDEC, short form `S_ST` (47_store.md R161). -/
  | stwPredecS (rd : Reg) (off : Int) (ra : Reg)
  /-- STW_PREDEC, long form `L_ST` (47_store.md R161). -/
  | stwPredecL (rd : Reg) (off : Int) (ra : Reg)
  /-- BRA, short form `S_B9` (48_branch.md R174). -/
  | braS (off : Int)
  /-- BRA, long form `L_B22` (48_branch.md R174). -/
  | braL (off : Int)
  /-- BAL, short form `S_B6R` (48_branch.md R166). -/
  | balS (off : Int) (rb : Reg)
  /-- BAL, long form `L_B16R` (48_branch.md R166). -/
  | balL (off : Int) (rb : Reg)
  /-- BEQ, short form `S_B3RR` (48_branch.md R168). -/
  | beqS (off : Int) (ra rb : Reg)
  /-- BEQ, long form `L_B10RR` (48_branch.md R168). -/
  | beqL (off : Int) (ra rb : Reg)
  /-- BNE, short form `S_B3RR` (48_branch.md R169). -/
  | bneS (off : Int) (ra rb : Reg)
  /-- BNE, long form `L_B10RR` (48_branch.md R169). -/
  | bneL (off : Int) (ra rb : Reg)
  /-- BLTS, short form `S_B3RR` (48_branch.md R170). -/
  | bltsS (off : Int) (ra rb : Reg)
  /-- BLTS, long form `L_B10RR` (48_branch.md R170). -/
  | bltsL (off : Int) (ra rb : Reg)
  /-- BGTS, short form `S_B3RR` (48_branch.md R171). -/
  | bgtsS (off : Int) (ra rb : Reg)
  /-- BGTS, long form `L_B10RR` (48_branch.md R171). -/
  | bgtsL (off : Int) (ra rb : Reg)
  /-- BLTU, short form `S_B3RR` (48_branch.md R172). -/
  | bltuS (off : Int) (ra rb : Reg)
  /-- BLTU, long form `L_B10RR` (48_branch.md R172). -/
  | bltuL (off : Int) (ra rb : Reg)
  /-- BGTU, short form `S_B3RR` (48_branch.md R173). -/
  | bgtuS (off : Int) (ra rb : Reg)
  /-- BGTU, long form `L_B10RR` (48_branch.md R173). -/
  | bgtuL (off : Int) (ra rb : Reg)
  /-- JMP, short form `S_R` (48_branch.md R175). -/
  | jmpS (rd : Reg)
  /-- JMP, long form `L_R` (48_branch.md R175). -/
  | jmpL (rd : Reg)
  /-- JAL, short form `S_R_R` (48_branch.md R167). -/
  | jalS (rd rb : Reg)
  /-- JAL, long form `L_R_R` (48_branch.md R167). -/
  | jalL (rd rb : Reg)
deriving DecidableEq, Repr

end Sys2Proof
end

