-- ==== Sys2Proof/WellFormed.lean ====
section
/-!
DEFINITION. Which operands an instruction's form can carry: the register class and the field widths of
spec/30_encoding.md (R57 to R61, R63, R64).
-/

namespace Sys2Proof

/-- The narrow class of a short instruction's 3-bit register field: registers 0 to 7 (R57). -/
def narrowReg (r : Reg) : Bool := decide (r.val < 8)

/-- `n` fits an unsigned field of `w` bits (R61). -/
def fitsUnsigned (w n : Nat) : Bool := decide (n < 2 ^ w)

/-- `z` fits a two's-complement field of `w` bits (R58, R59). -/
def fitsSigned (w : Nat) (z : Int) : Bool := decide (-(2 ^ (w - 1) : Int) ≤ z ∧ z < (2 ^ (w - 1) : Int))

/-- `n` is a decoded shift amount of a `w`-bit field: the field value plus one (R60). -/
def fitsShift (w n : Nat) : Bool := decide (1 ≤ n ∧ n ≤ 2 ^ w)

/-- The instruction is one its own form can encode. -/
def Instr.WellFormed : Instr → Bool
  | .nopS rd cmd => narrowReg rd && fitsUnsigned 6 cmd
  | .nopL _ cmd => fitsUnsigned 12 cmd
  | .addS rd ra rb => narrowReg rd && narrowReg ra && narrowReg rb
  | .addL _ _ _ => true
  | .subS rd ra rb => narrowReg rd && narrowReg ra && narrowReg rb
  | .subL _ _ _ => true
  | .andS rd ra rb => narrowReg rd && narrowReg ra && narrowReg rb
  | .andL _ _ _ => true
  | .orS rd ra rb => narrowReg rd && narrowReg ra && narrowReg rb
  | .orL _ _ _ => true
  | .xorS rd ra rb => narrowReg rd && narrowReg ra && narrowReg rb
  | .xorL _ _ _ => true
  | .asrS rd ra rb => narrowReg rd && narrowReg ra && narrowReg rb
  | .asrL _ _ _ => true
  | .lslS rd ra rb => narrowReg rd && narrowReg ra && narrowReg rb
  | .lslL _ _ _ => true
  | .lsrS rd ra rb => narrowReg rd && narrowReg ra && narrowReg rb
  | .lsrL _ _ _ => true
  | .movS rd ra => narrowReg rd && narrowReg ra
  | .movL _ _ => true
  | .addiS rd ra imm => narrowReg rd && narrowReg ra && fitsUnsigned 3 imm
  | .addiL _ _ imm => fitsUnsigned 10 imm
  | .subiS rd ra imm => narrowReg rd && narrowReg ra && fitsUnsigned 3 imm
  | .subiL _ _ imm => fitsUnsigned 10 imm
  | .asriS rd ra sh => narrowReg rd && narrowReg ra && fitsShift 3 sh
  | .asriL _ _ sh => fitsShift 6 sh
  | .lsliS rd ra sh => narrowReg rd && narrowReg ra && fitsShift 3 sh
  | .lsliL _ _ sh => fitsShift 6 sh
  | .lsriS rd ra sh => narrowReg rd && narrowReg ra && fitsShift 3 sh
  | .lsriL _ _ sh => fitsShift 6 sh
  | .moviS rd imm => narrowReg rd && fitsUnsigned 6 imm
  | .moviL _ imm => fitsUnsigned 16 imm
  | .addcL _ _ _ => true
  | .subcL _ _ _ => true
  | .andiL _ _ imm => fitsUnsigned 9 imm
  | .oriL _ _ imm => fitsUnsigned 9 imm
  | .xoriL _ _ imm => fitsUnsigned 9 imm
  | .ldbS rd ra off => narrowReg rd && narrowReg ra && fitsSigned 3 off
  | .ldbL _ _ off => fitsSigned 10 off
  | .ldbPostincS rd ra off => narrowReg rd && narrowReg ra && fitsSigned 3 off
  | .ldbPostincL _ _ off => fitsSigned 10 off
  | .ldbPredecS rd ra off => narrowReg rd && narrowReg ra && fitsSigned 3 off
  | .ldbPredecL _ _ off => fitsSigned 10 off
  | .ldwS rd ra off => narrowReg rd && narrowReg ra && fitsSigned 3 off
  | .ldwL _ _ off => fitsSigned 10 off
  | .ldwPostincS rd ra off => narrowReg rd && narrowReg ra && fitsSigned 3 off
  | .ldwPostincL _ _ off => fitsSigned 10 off
  | .ldwPredecS rd ra off => narrowReg rd && narrowReg ra && fitsSigned 3 off
  | .ldwPredecL _ _ off => fitsSigned 10 off
  | .stbS rd off ra => narrowReg rd && fitsSigned 3 off && narrowReg ra
  | .stbL _ off _ => fitsSigned 10 off
  | .stbPostincS rd off ra => narrowReg rd && fitsSigned 3 off && narrowReg ra
  | .stbPostincL _ off _ => fitsSigned 10 off
  | .stbPredecS rd off ra => narrowReg rd && fitsSigned 3 off && narrowReg ra
  | .stbPredecL _ off _ => fitsSigned 10 off
  | .stwS rd off ra => narrowReg rd && fitsSigned 3 off && narrowReg ra
  | .stwL _ off _ => fitsSigned 10 off
  | .stwPostincS rd off ra => narrowReg rd && fitsSigned 3 off && narrowReg ra
  | .stwPostincL _ off _ => fitsSigned 10 off
  | .stwPredecS rd off ra => narrowReg rd && fitsSigned 3 off && narrowReg ra
  | .stwPredecL _ off _ => fitsSigned 10 off
  | .braS off => fitsSigned 9 off
  | .braL off => fitsSigned 22 off
  | .balS off rb => fitsSigned 6 off && narrowReg rb
  | .balL off _ => fitsSigned 16 off
  | .beqS off ra rb => fitsSigned 3 off && narrowReg ra && narrowReg rb
  | .beqL off _ _ => fitsSigned 10 off
  | .bneS off ra rb => fitsSigned 3 off && narrowReg ra && narrowReg rb
  | .bneL off _ _ => fitsSigned 10 off
  | .bltsS off ra rb => fitsSigned 3 off && narrowReg ra && narrowReg rb
  | .bltsL off _ _ => fitsSigned 10 off
  | .bgtsS off ra rb => fitsSigned 3 off && narrowReg ra && narrowReg rb
  | .bgtsL off _ _ => fitsSigned 10 off
  | .bltuS off ra rb => fitsSigned 3 off && narrowReg ra && narrowReg rb
  | .bltuL off _ _ => fitsSigned 10 off
  | .bgtuS off ra rb => fitsSigned 3 off && narrowReg ra && narrowReg rb
  | .bgtuL off _ _ => fitsSigned 10 off
  | .jmpS rd => narrowReg rd
  | .jmpL _ => true
  | .jalS rd rb => narrowReg rd && narrowReg rb
  | .jalL _ _ => true

end Sys2Proof
end

