-- ==== Sys2Proof/Decode.lean ====
section
/-!
DEFINITION. The decoder, total on any bytes, and after it the encoder (spec/30_encoding.md).

A halfword has one frame (R53): bit 15, class, opcode, and the three 3-bit fields D, A, B. A long word is
two such halfwords (R54): the first marks the form and carries the class, the low opcode and the low part
of every field; the second carries X and the high part of every field. The bit positions and opcode
numbers are the spec's own decision D2 (log entry 14).
-/

namespace Sys2Proof

/-! ## Bytes and fields -/

/-- Bits 7:0 of a word (20_memory.md R30). -/
def lowByte (v : Word) : Byte := v.extractLsb' 0 8

/-- Bits 15:8 of a word (R30). -/
def highByte (v : Word) : Byte := v.extractLsb' 8 8

/-- `{hi, lo}`: the word of two bytes, the low byte at the lower address (R30, R31). -/
def wordOfBytes (lo hi : Byte) : Word := hi ++ lo

/-- `sext_from(n, v)`: the field read as two's complement (00_scope.md section 6.1). -/
def sextFrom (n : Nat) (v : BitVec n) : Int := v.toInt

/-- A narrow-class register field: 3 bits, registers 0 to 7 (R57). No field value is outside the class. -/
def narrow (f : BitVec 3) : Reg := ⟨f.toNat, by have := f.isLt; omega⟩

/-- A full-class register field `{hi, lo}`: 6 bits, registers 0 to 63 (R54, R57). -/
def full (hi lo : BitVec 3) : Reg := ⟨(hi ++ lo).toNat, by have := (hi ++ lo).isLt; omega⟩

/-- A shift-amount field is decoded as its value plus one (R60). -/
def shiftAmount (n : Nat) (f : BitVec n) : Nat := f.toNat + 1

/-- The frame of a halfword: bit 15, bits 14:13, 12:9, 8:6, 5:3 and 2:0 (R53). In the second halfword of
a long word `cls` is the class high part and `op` is X (R54). -/
structure Frame where
  l   : BitVec 1
  cls : BitVec 2
  op  : BitVec 4
  d   : BitVec 3
  a   : BitVec 3
  b   : BitVec 3
deriving DecidableEq, Repr

/-- A halfword taken apart (R53). -/
def Frame.ofHalf (h : Word) : Frame where
  l   := h.extractLsb' 15 1
  cls := h.extractLsb' 13 2
  op  := h.extractLsb' 9 4
  d   := h.extractLsb' 6 3
  a   := h.extractLsb' 3 3
  b   := h.extractLsb' 0 3

/-- A halfword put together (R53). -/
def Frame.toHalf (f : Frame) : Word := f.l ++ f.cls ++ f.op ++ f.d ++ f.a ++ f.b

/-! ## The short forms (R63, R65 to R67) -/

/-- Class 0 of the short forms: NOP, arithmetic, logic, shifts and moves (R65). Unused bits must be 0 (R62). -/
def shortClass0 (f : Frame) : Option Instr :=
  match f.op.toNat with
  | 0 => some (.nopS (narrow f.d) (f.a ++ f.b).toNat)
  | 1 => some (.addS (narrow f.d) (narrow f.a) (narrow f.b))
  | 2 => some (.subS (narrow f.d) (narrow f.a) (narrow f.b))
  | 3 => some (.andS (narrow f.d) (narrow f.a) (narrow f.b))
  | 4 => some (.orS (narrow f.d) (narrow f.a) (narrow f.b))
  | 5 => some (.xorS (narrow f.d) (narrow f.a) (narrow f.b))
  | 6 => some (.asrS (narrow f.d) (narrow f.a) (narrow f.b))
  | 7 => some (.lslS (narrow f.d) (narrow f.a) (narrow f.b))
  | 8 => some (.lsrS (narrow f.d) (narrow f.a) (narrow f.b))
  | 9 => if f.b = 0 then some (.movS (narrow f.d) (narrow f.a)) else none
  | 10 => some (.addiS (narrow f.d) (narrow f.a) f.b.toNat)
  | 11 => some (.subiS (narrow f.d) (narrow f.a) f.b.toNat)
  | 12 => some (.asriS (narrow f.d) (narrow f.a) (shiftAmount 3 f.b))
  | 13 => some (.lsliS (narrow f.d) (narrow f.a) (shiftAmount 3 f.b))
  | 14 => some (.lsriS (narrow f.d) (narrow f.a) (shiftAmount 3 f.b))
  | 15 => some (.moviS (narrow f.d) (f.a ++ f.b).toNat)
  | _ => none

/-- Class 1 of the short forms: loads and stores (R66). Unused bits must be 0 (R62). -/
def shortClass1 (f : Frame) : Option Instr :=
  match f.op.toNat with
  | 0 => some (.ldbS (narrow f.d) (narrow f.a) (sextFrom 3 f.b))
  | 1 => some (.ldbPostincS (narrow f.d) (narrow f.a) (sextFrom 3 f.b))
  | 2 => some (.ldbPredecS (narrow f.d) (narrow f.a) (sextFrom 3 f.b))
  | 4 => some (.ldwS (narrow f.d) (narrow f.a) (sextFrom 3 f.b))
  | 5 => some (.ldwPostincS (narrow f.d) (narrow f.a) (sextFrom 3 f.b))
  | 6 => some (.ldwPredecS (narrow f.d) (narrow f.a) (sextFrom 3 f.b))
  | 8 => some (.stbS (narrow f.d) (sextFrom 3 f.b) (narrow f.a))
  | 9 => some (.stbPostincS (narrow f.d) (sextFrom 3 f.b) (narrow f.a))
  | 10 => some (.stbPredecS (narrow f.d) (sextFrom 3 f.b) (narrow f.a))
  | 12 => some (.stwS (narrow f.d) (sextFrom 3 f.b) (narrow f.a))
  | 13 => some (.stwPostincS (narrow f.d) (sextFrom 3 f.b) (narrow f.a))
  | 14 => some (.stwPredecS (narrow f.d) (sextFrom 3 f.b) (narrow f.a))
  | _ => none

/-- Class 2 of the short forms: branches and jumps (R67). Unused bits must be 0 (R62). -/
def shortClass2 (f : Frame) : Option Instr :=
  match f.op.toNat with
  | 0 => some (.braS (sextFrom 9 (f.d ++ f.a ++ f.b)))
  | 1 => some (.balS (sextFrom 6 (f.d ++ f.a)) (narrow f.b))
  | 2 => some (.beqS (sextFrom 3 f.d) (narrow f.a) (narrow f.b))
  | 3 => some (.bneS (sextFrom 3 f.d) (narrow f.a) (narrow f.b))
  | 4 => some (.bltsS (sextFrom 3 f.d) (narrow f.a) (narrow f.b))
  | 5 => some (.bgtsS (sextFrom 3 f.d) (narrow f.a) (narrow f.b))
  | 6 => some (.bltuS (sextFrom 3 f.d) (narrow f.a) (narrow f.b))
  | 7 => some (.bgtuS (sextFrom 3 f.d) (narrow f.a) (narrow f.b))
  | 8 => if f.a = 0 ∧ f.b = 0 then some (.jmpS (narrow f.d)) else none
  | 9 => if f.a = 0 then some (.jalS (narrow f.d) (narrow f.b)) else none
  | _ => none

/-- The short instruction a halfword spells: bit 15 is 0, class 3 is unassigned (R53, R69). -/
def decodeShort (h : Word) : Option Instr :=
  let f := Frame.ofHalf h
  if f.l = 0 then
    match f.cls.toNat with
    | 0 => shortClass0 f
    | 1 => shortClass1 f
    | 2 => shortClass2 f
    | _ => none
  else none

/-! ## The long forms (R64 to R67)

`f` is the frame of the first halfword, `h` that of the second. -/

/-- Class 0 of the long forms: NOP, arithmetic, logic, shifts and moves (R65). X and unused bits as R64 fixes them. -/
def longClass0 (f h : Frame) : Option Instr :=
  match f.op.toNat with
  | 0 => if h.op = 0 then some (.nopL (full h.d f.d) (h.a ++ h.b ++ f.a ++ f.b).toNat) else none
  | 1 =>
    if h.op = 0 then some (.addL (full h.d f.d) (full h.a f.a) (full h.b f.b))
    else if h.op = 1 then some (.addcL (full h.d f.d) (full h.a f.a) (full h.b f.b))
    else none
  | 2 =>
    if h.op = 0 then some (.subL (full h.d f.d) (full h.a f.a) (full h.b f.b))
    else if h.op = 1 then some (.subcL (full h.d f.d) (full h.a f.a) (full h.b f.b))
    else none
  | 3 =>
    if h.op = 0 then some (.andL (full h.d f.d) (full h.a f.a) (full h.b f.b))
    else if h.op.extractLsb' 0 1 = 1 then some (.andiL (full h.d f.d) (full h.a f.a) (h.op.extractLsb' 1 3 ++ h.b ++ f.b).toNat)
    else none
  | 4 =>
    if h.op = 0 then some (.orL (full h.d f.d) (full h.a f.a) (full h.b f.b))
    else if h.op.extractLsb' 0 1 = 1 then some (.oriL (full h.d f.d) (full h.a f.a) (h.op.extractLsb' 1 3 ++ h.b ++ f.b).toNat)
    else none
  | 5 =>
    if h.op = 0 then some (.xorL (full h.d f.d) (full h.a f.a) (full h.b f.b))
    else if h.op.extractLsb' 0 1 = 1 then some (.xoriL (full h.d f.d) (full h.a f.a) (h.op.extractLsb' 1 3 ++ h.b ++ f.b).toNat)
    else none
  | 6 => if h.op = 0 then some (.asrL (full h.d f.d) (full h.a f.a) (full h.b f.b)) else none
  | 7 => if h.op = 0 then some (.lslL (full h.d f.d) (full h.a f.a) (full h.b f.b)) else none
  | 8 => if h.op = 0 then some (.lsrL (full h.d f.d) (full h.a f.a) (full h.b f.b)) else none
  | 9 => if h.op = 0 ∧ h.b = 0 ∧ f.b = 0 then some (.movL (full h.d f.d) (full h.a f.a)) else none
  | 10 => some (.addiL (full h.d f.d) (full h.a f.a) (h.op ++ h.b ++ f.b).toNat)
  | 11 => some (.subiL (full h.d f.d) (full h.a f.a) (h.op ++ h.b ++ f.b).toNat)
  | 12 => if h.op = 0 then some (.asriL (full h.d f.d) (full h.a f.a) (shiftAmount 6 (h.b ++ f.b))) else none
  | 13 => if h.op = 0 then some (.lsliL (full h.d f.d) (full h.a f.a) (shiftAmount 6 (h.b ++ f.b))) else none
  | 14 => if h.op = 0 then some (.lsriL (full h.d f.d) (full h.a f.a) (shiftAmount 6 (h.b ++ f.b))) else none
  | 15 => some (.moviL (full h.d f.d) (h.op ++ h.a ++ h.b ++ f.a ++ f.b).toNat)
  | _ => none

/-- Class 1 of the long forms: loads and stores (R66). X and unused bits as R64 fixes them. -/
def longClass1 (f h : Frame) : Option Instr :=
  match f.op.toNat with
  | 0 => some (.ldbL (full h.d f.d) (full h.a f.a) (sextFrom 10 (h.op ++ h.b ++ f.b)))
  | 1 => some (.ldbPostincL (full h.d f.d) (full h.a f.a) (sextFrom 10 (h.op ++ h.b ++ f.b)))
  | 2 => some (.ldbPredecL (full h.d f.d) (full h.a f.a) (sextFrom 10 (h.op ++ h.b ++ f.b)))
  | 4 => some (.ldwL (full h.d f.d) (full h.a f.a) (sextFrom 10 (h.op ++ h.b ++ f.b)))
  | 5 => some (.ldwPostincL (full h.d f.d) (full h.a f.a) (sextFrom 10 (h.op ++ h.b ++ f.b)))
  | 6 => some (.ldwPredecL (full h.d f.d) (full h.a f.a) (sextFrom 10 (h.op ++ h.b ++ f.b)))
  | 8 => some (.stbL (full h.d f.d) (sextFrom 10 (h.op ++ h.b ++ f.b)) (full h.a f.a))
  | 9 => some (.stbPostincL (full h.d f.d) (sextFrom 10 (h.op ++ h.b ++ f.b)) (full h.a f.a))
  | 10 => some (.stbPredecL (full h.d f.d) (sextFrom 10 (h.op ++ h.b ++ f.b)) (full h.a f.a))
  | 12 => some (.stwL (full h.d f.d) (sextFrom 10 (h.op ++ h.b ++ f.b)) (full h.a f.a))
  | 13 => some (.stwPostincL (full h.d f.d) (sextFrom 10 (h.op ++ h.b ++ f.b)) (full h.a f.a))
  | 14 => some (.stwPredecL (full h.d f.d) (sextFrom 10 (h.op ++ h.b ++ f.b)) (full h.a f.a))
  | _ => none

/-- Class 2 of the long forms: branches and jumps (R67). X and unused bits as R64 fixes them. -/
def longClass2 (f h : Frame) : Option Instr :=
  match f.op.toNat with
  | 0 => some (.braL (sextFrom 22 (h.op ++ h.d ++ h.a ++ h.b ++ f.d ++ f.a ++ f.b)))
  | 1 => some (.balL (sextFrom 16 (h.op ++ h.d ++ h.a ++ f.d ++ f.a)) (full h.b f.b))
  | 2 => some (.beqL (sextFrom 10 (h.op ++ h.d ++ f.d)) (full h.a f.a) (full h.b f.b))
  | 3 => some (.bneL (sextFrom 10 (h.op ++ h.d ++ f.d)) (full h.a f.a) (full h.b f.b))
  | 4 => some (.bltsL (sextFrom 10 (h.op ++ h.d ++ f.d)) (full h.a f.a) (full h.b f.b))
  | 5 => some (.bgtsL (sextFrom 10 (h.op ++ h.d ++ f.d)) (full h.a f.a) (full h.b f.b))
  | 6 => some (.bltuL (sextFrom 10 (h.op ++ h.d ++ f.d)) (full h.a f.a) (full h.b f.b))
  | 7 => some (.bgtuL (sextFrom 10 (h.op ++ h.d ++ f.d)) (full h.a f.a) (full h.b f.b))
  | 8 => if h.op = 0 ∧ h.a = 0 ∧ h.b = 0 ∧ f.a = 0 ∧ f.b = 0 then some (.jmpL (full h.d f.d)) else none
  | 9 => if h.op = 0 ∧ h.a = 0 ∧ f.a = 0 then some (.jalL (full h.d f.d) (full h.b f.b)) else none
  | _ => none

/-- The long instruction a word spells: `W[15] = 1`, `W[31] = 0`, `W[30:29] = 0` (R54, R69). -/
def decodeLong (w : BitVec 32) : Option Instr :=
  let f := Frame.ofHalf (w.extractLsb' 0 16)
  let h := Frame.ofHalf (w.extractLsb' 16 16)
  if f.l = 1 ∧ h.l = 0 ∧ h.cls = 0 then
    match f.cls.toNat with
    | 0 => longClass0 f h
    | 1 => longClass1 f h
    | 2 => longClass2 f h
    | _ => none
  else none

/-! ## The decode algorithm (R51) -/

/-- Why the decoder gives no instruction, one name per failing step of R51. -/
inductive DecodeFailure where
  /-- Step 1: fewer than 2 bytes are available. -/
  | fewerThanTwoBytes
  /-- Step 3: no short form matches and fewer than 4 bytes are available. -/
  | fewerThanFourBytes
  /-- Step 5: neither a short nor a long form matches. -/
  | noEncodingMatches
deriving DecidableEq, Repr

/-- The size reported with a failure: 0 for want of bytes, 2 where nothing matches (R51). -/
def DecodeFailure.size : DecodeFailure → FailSize
  | .fewerThanTwoBytes => .size0
  | .fewerThanFourBytes => .size0
  | .noEncodingMatches => .size2

/-- The decoder's answer: an instruction with its size in bytes, or a failure (R51). -/
inductive Decoded where
  | success (i : Instr) (size : Nat)
  | failure (r : DecodeFailure)
deriving DecidableEq, Repr

/-- The decode algorithm of R51, steps 1 to 5. The byte address the Step Driver passes along has no
effect (40_execution_cycle.md R92) and is left out. -/
def decode : List Byte → Decoded
  | b0 :: b1 :: rest =>
    match decodeShort (wordOfBytes b0 b1) with
    | some i => .success i 2
    | none =>
      match rest with
      | b2 :: b3 :: _ =>
        match decodeLong (wordOfBytes b2 b3 ++ wordOfBytes b0 b1) with
        | some i => .success i 4
        | none => .failure .noEncodingMatches
      | _ => .failure .fewerThanFourBytes
  | _ => .failure .fewerThanTwoBytes

/-- The four bytes of a 32-bit word, the least significant first (20_memory.md R31). -/
def wordBytes (w : BitVec 32) : List Byte :=
  [w.extractLsb' 0 8, w.extractLsb' 8 8, w.extractLsb' 16 8, w.extractLsb' 24 8]

/-- The instruction the decoder reads from the bits `w` of an opcode-table row of `nbits` bits, every bit
above `nbits` being 0. -/
def decodeTableWord (nbits w : Nat) : Option Instr :=
  match decode (wordBytes (BitVec.ofNat 32 (w % 2 ^ nbits))) with
  | .success i _ => some i
  | .failure _ => none

/-! ## The decoded instruction's tag, form and operands (R71) -/

/-- The opcode tag: the short and the long form of a mnemonic have the same (R71, D25). -/
def Instr.opcode : Instr → Opcode
  | .nopS _ _ => .nop
  | .nopL _ _ => .nop
  | .addS _ _ _ => .add
  | .addL _ _ _ => .add
  | .subS _ _ _ => .sub
  | .subL _ _ _ => .sub
  | .andS _ _ _ => .and
  | .andL _ _ _ => .and
  | .orS _ _ _ => .or
  | .orL _ _ _ => .or
  | .xorS _ _ _ => .xor
  | .xorL _ _ _ => .xor
  | .asrS _ _ _ => .asr
  | .asrL _ _ _ => .asr
  | .lslS _ _ _ => .lsl
  | .lslL _ _ _ => .lsl
  | .lsrS _ _ _ => .lsr
  | .lsrL _ _ _ => .lsr
  | .movS _ _ => .mov
  | .movL _ _ => .mov
  | .addiS _ _ _ => .addi
  | .addiL _ _ _ => .addi
  | .subiS _ _ _ => .subi
  | .subiL _ _ _ => .subi
  | .asriS _ _ _ => .asri
  | .asriL _ _ _ => .asri
  | .lsliS _ _ _ => .lsli
  | .lsliL _ _ _ => .lsli
  | .lsriS _ _ _ => .lsri
  | .lsriL _ _ _ => .lsri
  | .moviS _ _ => .movi
  | .moviL _ _ => .movi
  | .addcL _ _ _ => .addc
  | .subcL _ _ _ => .subc
  | .andiL _ _ _ => .andi
  | .oriL _ _ _ => .ori
  | .xoriL _ _ _ => .xori
  | .ldbS _ _ _ => .ldb
  | .ldbL _ _ _ => .ldb
  | .ldbPostincS _ _ _ => .ldbPostinc
  | .ldbPostincL _ _ _ => .ldbPostinc
  | .ldbPredecS _ _ _ => .ldbPredec
  | .ldbPredecL _ _ _ => .ldbPredec
  | .ldwS _ _ _ => .ldw
  | .ldwL _ _ _ => .ldw
  | .ldwPostincS _ _ _ => .ldwPostinc
  | .ldwPostincL _ _ _ => .ldwPostinc
  | .ldwPredecS _ _ _ => .ldwPredec
  | .ldwPredecL _ _ _ => .ldwPredec
  | .stbS _ _ _ => .stb
  | .stbL _ _ _ => .stb
  | .stbPostincS _ _ _ => .stbPostinc
  | .stbPostincL _ _ _ => .stbPostinc
  | .stbPredecS _ _ _ => .stbPredec
  | .stbPredecL _ _ _ => .stbPredec
  | .stwS _ _ _ => .stw
  | .stwL _ _ _ => .stw
  | .stwPostincS _ _ _ => .stwPostinc
  | .stwPostincL _ _ _ => .stwPostinc
  | .stwPredecS _ _ _ => .stwPredec
  | .stwPredecL _ _ _ => .stwPredec
  | .braS _ => .bra
  | .braL _ => .bra
  | .balS _ _ => .bal
  | .balL _ _ => .bal
  | .beqS _ _ _ => .beq
  | .beqL _ _ _ => .beq
  | .bneS _ _ _ => .bne
  | .bneL _ _ _ => .bne
  | .bltsS _ _ _ => .blts
  | .bltsL _ _ _ => .blts
  | .bgtsS _ _ _ => .bgts
  | .bgtsL _ _ _ => .bgts
  | .bltuS _ _ _ => .bltu
  | .bltuL _ _ _ => .bltu
  | .bgtuS _ _ _ => .bgtu
  | .bgtuL _ _ _ => .bgtu
  | .jmpS _ => .jmp
  | .jmpL _ => .jmp
  | .jalS _ _ => .jal
  | .jalL _ _ => .jal

/-- The form an instruction is encoded in (R50). -/
def Instr.form : Instr → Form
  | .nopS _ _ => .short
  | .nopL _ _ => .long
  | .addS _ _ _ => .short
  | .addL _ _ _ => .long
  | .subS _ _ _ => .short
  | .subL _ _ _ => .long
  | .andS _ _ _ => .short
  | .andL _ _ _ => .long
  | .orS _ _ _ => .short
  | .orL _ _ _ => .long
  | .xorS _ _ _ => .short
  | .xorL _ _ _ => .long
  | .asrS _ _ _ => .short
  | .asrL _ _ _ => .long
  | .lslS _ _ _ => .short
  | .lslL _ _ _ => .long
  | .lsrS _ _ _ => .short
  | .lsrL _ _ _ => .long
  | .movS _ _ => .short
  | .movL _ _ => .long
  | .addiS _ _ _ => .short
  | .addiL _ _ _ => .long
  | .subiS _ _ _ => .short
  | .subiL _ _ _ => .long
  | .asriS _ _ _ => .short
  | .asriL _ _ _ => .long
  | .lsliS _ _ _ => .short
  | .lsliL _ _ _ => .long
  | .lsriS _ _ _ => .short
  | .lsriL _ _ _ => .long
  | .moviS _ _ => .short
  | .moviL _ _ => .long
  | .addcL _ _ _ => .long
  | .subcL _ _ _ => .long
  | .andiL _ _ _ => .long
  | .oriL _ _ _ => .long
  | .xoriL _ _ _ => .long
  | .ldbS _ _ _ => .short
  | .ldbL _ _ _ => .long
  | .ldbPostincS _ _ _ => .short
  | .ldbPostincL _ _ _ => .long
  | .ldbPredecS _ _ _ => .short
  | .ldbPredecL _ _ _ => .long
  | .ldwS _ _ _ => .short
  | .ldwL _ _ _ => .long
  | .ldwPostincS _ _ _ => .short
  | .ldwPostincL _ _ _ => .long
  | .ldwPredecS _ _ _ => .short
  | .ldwPredecL _ _ _ => .long
  | .stbS _ _ _ => .short
  | .stbL _ _ _ => .long
  | .stbPostincS _ _ _ => .short
  | .stbPostincL _ _ _ => .long
  | .stbPredecS _ _ _ => .short
  | .stbPredecL _ _ _ => .long
  | .stwS _ _ _ => .short
  | .stwL _ _ _ => .long
  | .stwPostincS _ _ _ => .short
  | .stwPostincL _ _ _ => .long
  | .stwPredecS _ _ _ => .short
  | .stwPredecL _ _ _ => .long
  | .braS _ => .short
  | .braL _ => .long
  | .balS _ _ => .short
  | .balL _ _ => .long
  | .beqS _ _ _ => .short
  | .beqL _ _ _ => .long
  | .bneS _ _ _ => .short
  | .bneL _ _ _ => .long
  | .bltsS _ _ _ => .short
  | .bltsL _ _ _ => .long
  | .bgtsS _ _ _ => .short
  | .bgtsL _ _ _ => .long
  | .bltuS _ _ _ => .short
  | .bltuL _ _ _ => .long
  | .bgtuS _ _ _ => .short
  | .bgtuL _ _ _ => .long
  | .jmpS _ => .short
  | .jmpL _ => .long
  | .jalS _ _ => .short
  | .jalL _ _ => .long

/-- The ordered operand list (R71; the order of the formats in R63, R64). -/
def Instr.operands : Instr → List Operand
  | .nopS rd cmd => [.reg rd, .uimm cmd]
  | .nopL rd cmd => [.reg rd, .uimm cmd]
  | .addS rd ra rb => [.reg rd, .reg ra, .reg rb]
  | .addL rd ra rb => [.reg rd, .reg ra, .reg rb]
  | .subS rd ra rb => [.reg rd, .reg ra, .reg rb]
  | .subL rd ra rb => [.reg rd, .reg ra, .reg rb]
  | .andS rd ra rb => [.reg rd, .reg ra, .reg rb]
  | .andL rd ra rb => [.reg rd, .reg ra, .reg rb]
  | .orS rd ra rb => [.reg rd, .reg ra, .reg rb]
  | .orL rd ra rb => [.reg rd, .reg ra, .reg rb]
  | .xorS rd ra rb => [.reg rd, .reg ra, .reg rb]
  | .xorL rd ra rb => [.reg rd, .reg ra, .reg rb]
  | .asrS rd ra rb => [.reg rd, .reg ra, .reg rb]
  | .asrL rd ra rb => [.reg rd, .reg ra, .reg rb]
  | .lslS rd ra rb => [.reg rd, .reg ra, .reg rb]
  | .lslL rd ra rb => [.reg rd, .reg ra, .reg rb]
  | .lsrS rd ra rb => [.reg rd, .reg ra, .reg rb]
  | .lsrL rd ra rb => [.reg rd, .reg ra, .reg rb]
  | .movS rd ra => [.reg rd, .reg ra]
  | .movL rd ra => [.reg rd, .reg ra]
  | .addiS rd ra imm => [.reg rd, .reg ra, .uimm imm]
  | .addiL rd ra imm => [.reg rd, .reg ra, .uimm imm]
  | .subiS rd ra imm => [.reg rd, .reg ra, .uimm imm]
  | .subiL rd ra imm => [.reg rd, .reg ra, .uimm imm]
  | .asriS rd ra sh => [.reg rd, .reg ra, .uimm sh]
  | .asriL rd ra sh => [.reg rd, .reg ra, .uimm sh]
  | .lsliS rd ra sh => [.reg rd, .reg ra, .uimm sh]
  | .lsliL rd ra sh => [.reg rd, .reg ra, .uimm sh]
  | .lsriS rd ra sh => [.reg rd, .reg ra, .uimm sh]
  | .lsriL rd ra sh => [.reg rd, .reg ra, .uimm sh]
  | .moviS rd imm => [.reg rd, .uimm imm]
  | .moviL rd imm => [.reg rd, .uimm imm]
  | .addcL rd ra rb => [.reg rd, .reg ra, .reg rb]
  | .subcL rd ra rb => [.reg rd, .reg ra, .reg rb]
  | .andiL rd ra imm => [.reg rd, .reg ra, .uimm imm]
  | .oriL rd ra imm => [.reg rd, .reg ra, .uimm imm]
  | .xoriL rd ra imm => [.reg rd, .reg ra, .uimm imm]
  | .ldbS rd ra off => [.reg rd, .reg ra, .simm off]
  | .ldbL rd ra off => [.reg rd, .reg ra, .simm off]
  | .ldbPostincS rd ra off => [.reg rd, .reg ra, .simm off]
  | .ldbPostincL rd ra off => [.reg rd, .reg ra, .simm off]
  | .ldbPredecS rd ra off => [.reg rd, .reg ra, .simm off]
  | .ldbPredecL rd ra off => [.reg rd, .reg ra, .simm off]
  | .ldwS rd ra off => [.reg rd, .reg ra, .simm off]
  | .ldwL rd ra off => [.reg rd, .reg ra, .simm off]
  | .ldwPostincS rd ra off => [.reg rd, .reg ra, .simm off]
  | .ldwPostincL rd ra off => [.reg rd, .reg ra, .simm off]
  | .ldwPredecS rd ra off => [.reg rd, .reg ra, .simm off]
  | .ldwPredecL rd ra off => [.reg rd, .reg ra, .simm off]
  | .stbS rd off ra => [.reg rd, .simm off, .reg ra]
  | .stbL rd off ra => [.reg rd, .simm off, .reg ra]
  | .stbPostincS rd off ra => [.reg rd, .simm off, .reg ra]
  | .stbPostincL rd off ra => [.reg rd, .simm off, .reg ra]
  | .stbPredecS rd off ra => [.reg rd, .simm off, .reg ra]
  | .stbPredecL rd off ra => [.reg rd, .simm off, .reg ra]
  | .stwS rd off ra => [.reg rd, .simm off, .reg ra]
  | .stwL rd off ra => [.reg rd, .simm off, .reg ra]
  | .stwPostincS rd off ra => [.reg rd, .simm off, .reg ra]
  | .stwPostincL rd off ra => [.reg rd, .simm off, .reg ra]
  | .stwPredecS rd off ra => [.reg rd, .simm off, .reg ra]
  | .stwPredecL rd off ra => [.reg rd, .simm off, .reg ra]
  | .braS off => [.simm off]
  | .braL off => [.simm off]
  | .balS off rb => [.simm off, .reg rb]
  | .balL off rb => [.simm off, .reg rb]
  | .beqS off ra rb => [.simm off, .reg ra, .reg rb]
  | .beqL off ra rb => [.simm off, .reg ra, .reg rb]
  | .bneS off ra rb => [.simm off, .reg ra, .reg rb]
  | .bneL off ra rb => [.simm off, .reg ra, .reg rb]
  | .bltsS off ra rb => [.simm off, .reg ra, .reg rb]
  | .bltsL off ra rb => [.simm off, .reg ra, .reg rb]
  | .bgtsS off ra rb => [.simm off, .reg ra, .reg rb]
  | .bgtsL off ra rb => [.simm off, .reg ra, .reg rb]
  | .bltuS off ra rb => [.simm off, .reg ra, .reg rb]
  | .bltuL off ra rb => [.simm off, .reg ra, .reg rb]
  | .bgtuS off ra rb => [.simm off, .reg ra, .reg rb]
  | .bgtuL off ra rb => [.simm off, .reg ra, .reg rb]
  | .jmpS rd => [.reg rd]
  | .jmpL rd => [.reg rd]
  | .jalS rd rb => [.reg rd, .reg rb]
  | .jalL rd rb => [.reg rd, .reg rb]

/-- The size of an instruction in bytes: 2 or 4 (R50). -/
def Form.bytes : Form → Nat
  | .short => 2
  | .long => 4

/-! ## The encoder (R63 to R67) -/

/-- The low 3 bits of a register id: the field of a short form, the low part of a long one. -/
def regLow (r : Reg) : BitVec 3 := (BitVec.ofNat 6 r.val).extractLsb' 0 3

/-- The high 3 bits of a register id: the high part of a long form's field. -/
def regHigh (r : Reg) : BitVec 3 := (BitVec.ofNat 6 r.val).extractLsb' 3 3

/-- Bits `k+2:k` of a field. -/
def bits3 {n : Nat} (v : BitVec n) (k : Nat) : BitVec 3 := v.extractLsb' k 3

/-- Bits `k+3:k` of a field. -/
def bits4 {n : Nat} (v : BitVec n) (k : Nat) : BitVec 4 := v.extractLsb' k 4

/-- The halfword of a short form. -/
def shortWord (cls : BitVec 2) (op : BitVec 4) (d a b : BitVec 3) : List Word :=
  [Frame.toHalf ⟨0, cls, op, d, a, b⟩]

/-- The two halfwords of a long form, the first at the lower address; `x` is X. -/
def longWords (cls : BitVec 2) (op x : BitVec 4) (dh ah bh dl al bl : BitVec 3) : List Word :=
  [Frame.toHalf ⟨1, cls, op, dl, al, bl⟩, Frame.toHalf ⟨0, 0, x, dh, ah, bh⟩]

/-- Format `L_RRR`: three registers and a fixed X. -/
def longRRR (op x : BitVec 4) (rd ra rb : Reg) : List Word :=
  longWords 0 op x (regHigh rd) (regHigh ra) (regHigh rb) (regLow rd) (regLow ra) (regLow rb)

/-- Format `L_RRI10`, and `L_LD`, `L_ST` in class 1: two registers and a 10-bit field
`{W[28:25], W[18:16], W[2:0]}`. -/
def longRR10 (cls : BitVec 2) (op : BitVec 4) (rd ra : Reg) (v : BitVec 10) : List Word :=
  longWords cls op (bits4 v 6) (regHigh rd) (regHigh ra) (bits3 v 3) (regLow rd) (regLow ra) (bits3 v 0)

/-- Format `L_RRI9`: two registers and a 9-bit field `{W[28:26], W[18:16], W[2:0]}`, `W[25] = 1`. -/
def longRR9 (op : BitVec 4) (rd ra : Reg) (v : BitVec 9) : List Word :=
  longWords 0 op (bits3 v 6 ++ 1#1) (regHigh rd) (regHigh ra) (bits3 v 3) (regLow rd) (regLow ra) (bits3 v 0)

/-- Format `L_RRSH6`: two registers and a 6-bit field `{W[18:16], W[2:0]}`. -/
def longRR6 (op : BitVec 4) (rd ra : Reg) (v : BitVec 6) : List Word :=
  longWords 0 op 0 (regHigh rd) (regHigh ra) (bits3 v 3) (regLow rd) (regLow ra) (bits3 v 0)

/-- Format `L_B10RR`: a 10-bit field `{W[28:25], W[24:22], W[8:6]}` and two registers. -/
def longB10RR (op : BitVec 4) (v : BitVec 10) (ra rb : Reg) : List Word :=
  longWords 2 op (bits4 v 6) (bits3 v 3) (regHigh ra) (regHigh rb) (bits3 v 0) (regLow ra) (regLow rb)

/-- Format `S_RI6`: a register and a 6-bit field. -/
def shortRI6 (op : BitVec 4) (rd : Reg) (v : BitVec 6) : List Word :=
  shortWord 0 op (regLow rd) (bits3 v 3) (bits3 v 0)

/-- The words of an instruction, the first at the lowest address. For a well-formed instruction decoding
them gives it back; an operand outside its field is cut to the field. -/
def encode : Instr → List Word
  | .nopS rd cmd => shortRI6 0 rd (BitVec.ofNat 6 cmd)
  | .nopL rd cmd => longWords 0 0 0 (regHigh rd) (bits3 (BitVec.ofNat 12 cmd) 9) (bits3 (BitVec.ofNat 12 cmd) 6) (regLow rd) (bits3 (BitVec.ofNat 12 cmd) 3) (bits3 (BitVec.ofNat 12 cmd) 0)
  | .addS rd ra rb => shortWord 0 1 (regLow rd) (regLow ra) (regLow rb)
  | .addL rd ra rb => longRRR 1 0 rd ra rb
  | .subS rd ra rb => shortWord 0 2 (regLow rd) (regLow ra) (regLow rb)
  | .subL rd ra rb => longRRR 2 0 rd ra rb
  | .andS rd ra rb => shortWord 0 3 (regLow rd) (regLow ra) (regLow rb)
  | .andL rd ra rb => longRRR 3 0 rd ra rb
  | .orS rd ra rb => shortWord 0 4 (regLow rd) (regLow ra) (regLow rb)
  | .orL rd ra rb => longRRR 4 0 rd ra rb
  | .xorS rd ra rb => shortWord 0 5 (regLow rd) (regLow ra) (regLow rb)
  | .xorL rd ra rb => longRRR 5 0 rd ra rb
  | .asrS rd ra rb => shortWord 0 6 (regLow rd) (regLow ra) (regLow rb)
  | .asrL rd ra rb => longRRR 6 0 rd ra rb
  | .lslS rd ra rb => shortWord 0 7 (regLow rd) (regLow ra) (regLow rb)
  | .lslL rd ra rb => longRRR 7 0 rd ra rb
  | .lsrS rd ra rb => shortWord 0 8 (regLow rd) (regLow ra) (regLow rb)
  | .lsrL rd ra rb => longRRR 8 0 rd ra rb
  | .movS rd ra => shortWord 0 9 (regLow rd) (regLow ra) 0
  | .movL rd ra => longWords 0 9 0 (regHigh rd) (regHigh ra) 0 (regLow rd) (regLow ra) 0
  | .addiS rd ra imm => shortWord 0 10 (regLow rd) (regLow ra) (BitVec.ofNat 3 imm)
  | .addiL rd ra imm => longRR10 0 10 rd ra (BitVec.ofNat 10 imm)
  | .subiS rd ra imm => shortWord 0 11 (regLow rd) (regLow ra) (BitVec.ofNat 3 imm)
  | .subiL rd ra imm => longRR10 0 11 rd ra (BitVec.ofNat 10 imm)
  | .asriS rd ra sh => shortWord 0 12 (regLow rd) (regLow ra) (BitVec.ofNat 3 (sh - 1))
  | .asriL rd ra sh => longRR6 12 rd ra (BitVec.ofNat 6 (sh - 1))
  | .lsliS rd ra sh => shortWord 0 13 (regLow rd) (regLow ra) (BitVec.ofNat 3 (sh - 1))
  | .lsliL rd ra sh => longRR6 13 rd ra (BitVec.ofNat 6 (sh - 1))
  | .lsriS rd ra sh => shortWord 0 14 (regLow rd) (regLow ra) (BitVec.ofNat 3 (sh - 1))
  | .lsriL rd ra sh => longRR6 14 rd ra (BitVec.ofNat 6 (sh - 1))
  | .moviS rd imm => shortRI6 15 rd (BitVec.ofNat 6 imm)
  | .moviL rd imm => longWords 0 15 (bits4 (BitVec.ofNat 16 imm) 12) (regHigh rd) (bits3 (BitVec.ofNat 16 imm) 9) (bits3 (BitVec.ofNat 16 imm) 6) (regLow rd) (bits3 (BitVec.ofNat 16 imm) 3) (bits3 (BitVec.ofNat 16 imm) 0)
  | .addcL rd ra rb => longRRR 1 1 rd ra rb
  | .subcL rd ra rb => longRRR 2 1 rd ra rb
  | .andiL rd ra imm => longRR9 3 rd ra (BitVec.ofNat 9 imm)
  | .oriL rd ra imm => longRR9 4 rd ra (BitVec.ofNat 9 imm)
  | .xoriL rd ra imm => longRR9 5 rd ra (BitVec.ofNat 9 imm)
  | .ldbS rd ra off => shortWord 1 0 (regLow rd) (regLow ra) (BitVec.ofInt 3 off)
  | .ldbL rd ra off => longRR10 1 0 rd ra (BitVec.ofInt 10 off)
  | .ldbPostincS rd ra off => shortWord 1 1 (regLow rd) (regLow ra) (BitVec.ofInt 3 off)
  | .ldbPostincL rd ra off => longRR10 1 1 rd ra (BitVec.ofInt 10 off)
  | .ldbPredecS rd ra off => shortWord 1 2 (regLow rd) (regLow ra) (BitVec.ofInt 3 off)
  | .ldbPredecL rd ra off => longRR10 1 2 rd ra (BitVec.ofInt 10 off)
  | .ldwS rd ra off => shortWord 1 4 (regLow rd) (regLow ra) (BitVec.ofInt 3 off)
  | .ldwL rd ra off => longRR10 1 4 rd ra (BitVec.ofInt 10 off)
  | .ldwPostincS rd ra off => shortWord 1 5 (regLow rd) (regLow ra) (BitVec.ofInt 3 off)
  | .ldwPostincL rd ra off => longRR10 1 5 rd ra (BitVec.ofInt 10 off)
  | .ldwPredecS rd ra off => shortWord 1 6 (regLow rd) (regLow ra) (BitVec.ofInt 3 off)
  | .ldwPredecL rd ra off => longRR10 1 6 rd ra (BitVec.ofInt 10 off)
  | .stbS rd off ra => shortWord 1 8 (regLow rd) (regLow ra) (BitVec.ofInt 3 off)
  | .stbL rd off ra => longRR10 1 8 rd ra (BitVec.ofInt 10 off)
  | .stbPostincS rd off ra => shortWord 1 9 (regLow rd) (regLow ra) (BitVec.ofInt 3 off)
  | .stbPostincL rd off ra => longRR10 1 9 rd ra (BitVec.ofInt 10 off)
  | .stbPredecS rd off ra => shortWord 1 10 (regLow rd) (regLow ra) (BitVec.ofInt 3 off)
  | .stbPredecL rd off ra => longRR10 1 10 rd ra (BitVec.ofInt 10 off)
  | .stwS rd off ra => shortWord 1 12 (regLow rd) (regLow ra) (BitVec.ofInt 3 off)
  | .stwL rd off ra => longRR10 1 12 rd ra (BitVec.ofInt 10 off)
  | .stwPostincS rd off ra => shortWord 1 13 (regLow rd) (regLow ra) (BitVec.ofInt 3 off)
  | .stwPostincL rd off ra => longRR10 1 13 rd ra (BitVec.ofInt 10 off)
  | .stwPredecS rd off ra => shortWord 1 14 (regLow rd) (regLow ra) (BitVec.ofInt 3 off)
  | .stwPredecL rd off ra => longRR10 1 14 rd ra (BitVec.ofInt 10 off)
  | .braS off => shortWord 2 0 (bits3 (BitVec.ofInt 9 off) 6) (bits3 (BitVec.ofInt 9 off) 3) (bits3 (BitVec.ofInt 9 off) 0)
  | .braL off => longWords 2 0 (bits4 (BitVec.ofInt 22 off) 18) (bits3 (BitVec.ofInt 22 off) 15) (bits3 (BitVec.ofInt 22 off) 12) (bits3 (BitVec.ofInt 22 off) 9) (bits3 (BitVec.ofInt 22 off) 6) (bits3 (BitVec.ofInt 22 off) 3) (bits3 (BitVec.ofInt 22 off) 0)
  | .balS off rb => shortWord 2 1 (bits3 (BitVec.ofInt 6 off) 3) (bits3 (BitVec.ofInt 6 off) 0) (regLow rb)
  | .balL off rb => longWords 2 1 (bits4 (BitVec.ofInt 16 off) 12) (bits3 (BitVec.ofInt 16 off) 9) (bits3 (BitVec.ofInt 16 off) 6) (regHigh rb) (bits3 (BitVec.ofInt 16 off) 3) (bits3 (BitVec.ofInt 16 off) 0) (regLow rb)
  | .beqS off ra rb => shortWord 2 2 (BitVec.ofInt 3 off) (regLow ra) (regLow rb)
  | .beqL off ra rb => longB10RR 2 (BitVec.ofInt 10 off) ra rb
  | .bneS off ra rb => shortWord 2 3 (BitVec.ofInt 3 off) (regLow ra) (regLow rb)
  | .bneL off ra rb => longB10RR 3 (BitVec.ofInt 10 off) ra rb
  | .bltsS off ra rb => shortWord 2 4 (BitVec.ofInt 3 off) (regLow ra) (regLow rb)
  | .bltsL off ra rb => longB10RR 4 (BitVec.ofInt 10 off) ra rb
  | .bgtsS off ra rb => shortWord 2 5 (BitVec.ofInt 3 off) (regLow ra) (regLow rb)
  | .bgtsL off ra rb => longB10RR 5 (BitVec.ofInt 10 off) ra rb
  | .bltuS off ra rb => shortWord 2 6 (BitVec.ofInt 3 off) (regLow ra) (regLow rb)
  | .bltuL off ra rb => longB10RR 6 (BitVec.ofInt 10 off) ra rb
  | .bgtuS off ra rb => shortWord 2 7 (BitVec.ofInt 3 off) (regLow ra) (regLow rb)
  | .bgtuL off ra rb => longB10RR 7 (BitVec.ofInt 10 off) ra rb
  | .jmpS rd => shortWord 2 8 (regLow rd) 0 0
  | .jmpL rd => longWords 2 8 0 (regHigh rd) 0 0 (regLow rd) 0 0
  | .jalS rd rb => shortWord 2 9 (regLow rd) 0 (regLow rb)
  | .jalL rd rb => longWords 2 9 0 (regHigh rd) 0 (regHigh rb) (regLow rd) 0 (regLow rb)

/-- The bytes of an instruction in code-memory order: each word low byte first (20_memory.md R31). -/
def encodeBytes (i : Instr) : List Byte := (encode i).flatMap fun h => [lowByte h, highByte h]

/-! ## The opcode map as match and mask pairs (R56, R65 to R67)

The spec's own form of the table. The decoder above does not read it: it is here to be held against the
decoder. -/

/-- A row of the opcode map: a word `v` matches the row when `v &&& mask = pattern` (R56). -/
structure EncodingRow (n : Nat) where
  opcode  : Opcode
  pattern : BitVec n
  mask    : BitVec n
deriving DecidableEq, Repr

/-- The short rows. -/
def shortTable : List (EncodingRow 16) :=
  [
    ⟨.nop, 0x0000, 0xFE00⟩,
    ⟨.add, 0x0200, 0xFE00⟩,
    ⟨.sub, 0x0400, 0xFE00⟩,
    ⟨.and, 0x0600, 0xFE00⟩,
    ⟨.or, 0x0800, 0xFE00⟩,
    ⟨.xor, 0x0A00, 0xFE00⟩,
    ⟨.asr, 0x0C00, 0xFE00⟩,
    ⟨.lsl, 0x0E00, 0xFE00⟩,
    ⟨.lsr, 0x1000, 0xFE00⟩,
    ⟨.mov, 0x1200, 0xFE07⟩,
    ⟨.addi, 0x1400, 0xFE00⟩,
    ⟨.subi, 0x1600, 0xFE00⟩,
    ⟨.asri, 0x1800, 0xFE00⟩,
    ⟨.lsli, 0x1A00, 0xFE00⟩,
    ⟨.lsri, 0x1C00, 0xFE00⟩,
    ⟨.movi, 0x1E00, 0xFE00⟩
  ] ++
  [
    ⟨.ldb, 0x2000, 0xFE00⟩,
    ⟨.ldbPostinc, 0x2200, 0xFE00⟩,
    ⟨.ldbPredec, 0x2400, 0xFE00⟩,
    ⟨.ldw, 0x2800, 0xFE00⟩,
    ⟨.ldwPostinc, 0x2A00, 0xFE00⟩,
    ⟨.ldwPredec, 0x2C00, 0xFE00⟩,
    ⟨.stb, 0x3000, 0xFE00⟩,
    ⟨.stbPostinc, 0x3200, 0xFE00⟩,
    ⟨.stbPredec, 0x3400, 0xFE00⟩,
    ⟨.stw, 0x3800, 0xFE00⟩,
    ⟨.stwPostinc, 0x3A00, 0xFE00⟩,
    ⟨.stwPredec, 0x3C00, 0xFE00⟩
  ] ++
  [
    ⟨.bra, 0x4000, 0xFE00⟩,
    ⟨.bal, 0x4200, 0xFE00⟩,
    ⟨.beq, 0x4400, 0xFE00⟩,
    ⟨.bne, 0x4600, 0xFE00⟩,
    ⟨.blts, 0x4800, 0xFE00⟩,
    ⟨.bgts, 0x4A00, 0xFE00⟩,
    ⟨.bltu, 0x4C00, 0xFE00⟩,
    ⟨.bgtu, 0x4E00, 0xFE00⟩,
    ⟨.jmp, 0x5000, 0xFE3F⟩,
    ⟨.jal, 0x5200, 0xFE38⟩
  ]

/-- The long rows. -/
def longTable : List (EncodingRow 32) :=
  [
    ⟨.nop, 0x00008000, 0xFE00FE00⟩,
    ⟨.add, 0x00008200, 0xFE00FE00⟩,
    ⟨.sub, 0x00008400, 0xFE00FE00⟩,
    ⟨.and, 0x00008600, 0xFE00FE00⟩,
    ⟨.or, 0x00008800, 0xFE00FE00⟩,
    ⟨.xor, 0x00008A00, 0xFE00FE00⟩,
    ⟨.asr, 0x00008C00, 0xFE00FE00⟩,
    ⟨.lsl, 0x00008E00, 0xFE00FE00⟩,
    ⟨.lsr, 0x00009000, 0xFE00FE00⟩,
    ⟨.mov, 0x00009200, 0xFE07FE07⟩,
    ⟨.addi, 0x00009400, 0xE000FE00⟩,
    ⟨.subi, 0x00009600, 0xE000FE00⟩,
    ⟨.asri, 0x00009800, 0xFE00FE00⟩,
    ⟨.lsli, 0x00009A00, 0xFE00FE00⟩,
    ⟨.lsri, 0x00009C00, 0xFE00FE00⟩,
    ⟨.movi, 0x00009E00, 0xE000FE00⟩,
    ⟨.addc, 0x02008200, 0xFE00FE00⟩,
    ⟨.subc, 0x02008400, 0xFE00FE00⟩,
    ⟨.andi, 0x02008600, 0xE200FE00⟩,
    ⟨.ori, 0x02008800, 0xE200FE00⟩,
    ⟨.xori, 0x02008A00, 0xE200FE00⟩
  ] ++
  [
    ⟨.ldb, 0x0000A000, 0xE000FE00⟩,
    ⟨.ldbPostinc, 0x0000A200, 0xE000FE00⟩,
    ⟨.ldbPredec, 0x0000A400, 0xE000FE00⟩,
    ⟨.ldw, 0x0000A800, 0xE000FE00⟩,
    ⟨.ldwPostinc, 0x0000AA00, 0xE000FE00⟩,
    ⟨.ldwPredec, 0x0000AC00, 0xE000FE00⟩,
    ⟨.stb, 0x0000B000, 0xE000FE00⟩,
    ⟨.stbPostinc, 0x0000B200, 0xE000FE00⟩,
    ⟨.stbPredec, 0x0000B400, 0xE000FE00⟩,
    ⟨.stw, 0x0000B800, 0xE000FE00⟩,
    ⟨.stwPostinc, 0x0000BA00, 0xE000FE00⟩,
    ⟨.stwPredec, 0x0000BC00, 0xE000FE00⟩
  ] ++
  [
    ⟨.bra, 0x0000C000, 0xE000FE00⟩,
    ⟨.bal, 0x0000C200, 0xE000FE00⟩,
    ⟨.beq, 0x0000C400, 0xE000FE00⟩,
    ⟨.bne, 0x0000C600, 0xE000FE00⟩,
    ⟨.blts, 0x0000C800, 0xE000FE00⟩,
    ⟨.bgts, 0x0000CA00, 0xE000FE00⟩,
    ⟨.bltu, 0x0000CC00, 0xE000FE00⟩,
    ⟨.bgtu, 0x0000CE00, 0xE000FE00⟩,
    ⟨.jmp, 0x0000D000, 0xFE3FFE3F⟩,
    ⟨.jal, 0x0000D200, 0xFE38FE38⟩
  ]

end Sys2Proof
end

