-- ==== Sys2Proof/Config.lean ====
section
/-!
DEFINITION. What an implementation fixes and what the spec leaves open (spec/00_scope.md section 4,
spec/92_eei_decisions.md, spec/93_implementation_defined.md). A parameter whose value the spec leaves
open is an opaque constant: no proof can see which of the listed effects it selects.
-/

namespace Sys2Proof.Config

/-- The number of bytes of code memory: `CODE_ADDR_BITS = 17` (10_state.md R16). -/
def codeBytes : Nat := 131072

/-- The number of bytes of data memory: `DATA_ADDR_BITS = 16` (R17). -/
def dataBytes : Nat := 65536

/-- `RESET_PC` at its default (70_reset_and_hazards.md R201).
Mark: DESIGN CHOICE, unsafe: the parameter is open and another machine may start elsewhere (log entry 5). -/
def resetPc : Word := 0x0000

/-- What a general register holds at reset; the spec gives no value (R202).
Mark: DESIGN CHOICE, unsafe (log entry 1). -/
def resetReg : Word := 0x0000

/-- What `V` holds at reset; the spec gives no value (R203).
Mark: DESIGN CHOICE, unsafe (log entry 2). -/
def resetV : Bool := false

/-- What `EXIT` holds at reset; the spec gives no value and the value is not valid (R204).
Mark: DESIGN CHOICE, unsafe (log entry 3). -/
def resetExit : Word := 0x0000

/-- What an address that no cell lists reads as, in both memories; the spec gives no value (R205).
Mark: DESIGN CHOICE, unsafe (log entry 4). -/
def unlistedByte : Byte := 0x00

/-- The values of `TRAP_POLICY` (40_execution_cycle.md R100). -/
inductive TrapPolicy where
  | trap
  | abort
deriving DecidableEq, Repr, Inhabited

/-- `TRAP_POLICY`: fixed when the core is built, selectable, unknown to a program (R100).
Mark: DESIGN CHOICE, safe: a claim holds for both values (log entry 11). -/
opaque trapPolicy : TrapPolicy

/-- The effects R145 lists for a post-increment load whose destination is its pointer. -/
inductive PostincLoadSameReg where
  | pointerWins
  | loadedPlusSize
deriving DecidableEq, Repr, Inhabited

/-- `POSTINC_LOAD_SAME_REG` (46_load.md R145): one of the two effects the spec lists, unknown which.
Mark: DESIGN CHOICE, unsafe: a core that did a third thing is not covered (log entry 8). -/
opaque postincLoadSameReg : PostincLoadSameReg

/-- The effects R155 lists for a pre-decrement store of its own pointer. -/
inductive PredecStoreSameReg where
  | valueAfterDecrement
  | valueBeforeDecrement
deriving DecidableEq, Repr, Inhabited

/-- `PREDEC_STORE_SAME_REG` (47_store.md R155): one of the two effects the spec lists, unknown which.
Mark: DESIGN CHOICE, unsafe: a core that did a third thing is not covered (log entry 9). -/
opaque predecStoreSameReg : PredecStoreSameReg

/-- The effects R167 lists for a JAL whose target register is its link register. -/
inductive JalSameReg where
  | linkFirst
  | targetFirst
deriving DecidableEq, Repr, Inhabited

/-- `JAL_SAME_REG` (48_branch.md R167): one of the two effects the spec lists, unknown which.
Mark: DESIGN CHOICE, unsafe: a core that did a third thing is not covered (log entry 10). -/
opaque jalSameReg : JalSameReg

end Sys2Proof.Config
end

