-- ==== Sys2Proof/Machine/State.lean ====
section
/-!
DEFINITION. The state of the aap-llvm core as plain data (spec/10_state.md), the reasons a step can stop,
and the state after reset (spec/70_reset_and_hazards.md).
-/

namespace Sys2Proof.Machine

/-- The status a step returns: "one of {Ok, Trap, Breakpoint, Quit, InvalidInstruction}" (10_state.md R15,
60_exceptions.md R180). Its numbers are not fixed (D19). -/
inductive StepStatus where
  | ok
  | trap
  | breakpoint
  | quit
  | invalidInstruction
deriving DecidableEq, Repr

/-- A memory: the listed bytes with their addresses. An address not listed reads `Config.unlistedByte`.
`Memory.wf` (Ops.lean) says the canonical form holds. -/
abbrev Memory := List Host.Cell

/-- The state. The last two fields are the model's own: the outputs of the last step (log entry 6). -/
structure State where
  /-- The general registers `x[0]` to `x[63]` (R10). -/
  regs : Vector Word 64
  /-- The program counter, a word address (R12). -/
  pc : Word
  /-- The overflow flag `V` (R13). -/
  v : Bool
  /-- The exit-code register `EXIT` (R14). -/
  exitCode : Word
  /-- `EXIT` holds what a Quit captured: it is "valid only after a Quit status" (R14, R204). -/
  exitValid : Bool
  /-- Code memory (R16). -/
  codeMem : Memory
  /-- Data memory (R17). -/
  dataMem : Memory
  /-- The bytes emitted to `stdout`, oldest first (R18). -/
  stdout : List Byte
  /-- The bytes emitted to `stderr`, oldest first (R18). -/
  stderr : List Byte
  /-- The core has halted for good under `TRAP_POLICY = abort` (40_execution_cycle.md R100, R102). -/
  halted : Bool
  /-- The status the last step returned (R15). No step reads it. -/
  status : StepStatus
  /-- The size the decoder reported, beside the status `InvalidInstruction` only (R93). No step reads it. -/
  failSize : Option FailSize
deriving DecidableEq, Repr

/-- Why the machine stops. -/
inductive Fault where
  /-- Raised by `step` on a core that `TRAP_POLICY = abort` has halted: "the core halts for good and
  accepts no further step" (R100). Safe: the spec gives such a core no further step. -/
  | halted
deriving DecidableEq, Repr

/-- Why the model gives an instruction no meaning. -/
inductive Refusal where
  /-- Raised by `exec` for an instruction whose meaning is not written yet. Safe: nothing can be proved of
  what the instruction does. No arm raises it: every instruction has its meaning. -/
  | notModelled (mnemonic : String)
deriving DecidableEq, Repr

/-- The machine right after reset (R200 to R206). The pc is `RESET_PC` at its default and the streams are
empty; what the spec leaves unspecified has the value Config.lean names (log entries 1 to 6). -/
def State.reset : State where
  regs := Vector.replicate 64 Config.resetReg
  pc := Config.resetPc
  v := Config.resetV
  exitCode := Config.resetExit
  exitValid := false
  codeMem := []
  dataMem := []
  stdout := []
  stderr := []
  halted := false
  status := .ok
  failSize := none

end Sys2Proof.Machine
end

