-- ==== Sys2Proof/Machine/Ops.lean ====
section
/-!
DEFINITION. The named operations over registers, memories, streams and the program counter that every
meaning is written with (spec/10_state.md, spec/20_memory.md, spec/40_execution_cycle.md).
-/

namespace Sys2Proof.Machine

/-- What a step or a meaning answers. -/
abbrev Result := Host.Outcome State Fault Refusal

/-! ## Numbers (00_scope.md section 6.1) -/

/-- `trunc16(z) = z mod 2^16`. -/
def trunc16 (z : Int) : Word := BitVec.ofInt 16 z

/-- `s16(v)`: the word read as signed two's complement. -/
def s16 (v : Word) : Int := sextFrom 16 v

/-! ## Memories -/

/-- The byte at an address; an address not listed reads `Config.unlistedByte` (70_reset_and_hazards.md
R205, log entry 4). -/
def Memory.read : Memory → Nat → Byte
  | [], _ => Config.unlistedByte
  | (k, b) :: m, a => if k = a then b else Memory.read m a

/-- Lists the byte `v` at address `a`, before the first larger address. -/
def Memory.insert (a : Nat) (v : Byte) : Memory → Memory
  | [] => [(a, v)]
  | (k, b) :: m =>
    if a < k then (a, v) :: (k, b) :: m
    else if a = k then (a, v) :: m
    else (k, b) :: Memory.insert a v m

/-- Writes one byte, keeping the canonical form: writing what an unlisted address reads as removes the
entry. -/
def Memory.write (m : Memory) (a : Nat) (v : Byte) : Memory :=
  if v = Config.unlistedByte then m.filter (fun c => c.1 != a) else Memory.insert a v m

/-- The canonical form of a memory of `limit` bytes: every listed address exists, the addresses rise
strictly, and no entry equals what an unlisted address reads as. -/
def Memory.wf (limit : Nat) : Memory → Bool
  | [] => true
  | (a, b) :: m =>
    decide (a < limit) && b != Config.unlistedByte && m.all (fun c => decide (a < c.1)) && Memory.wf limit m

/-- Writes a run of bytes at rising addresses, one after another: a later write wins (20_memory.md R45). -/
def Memory.writeAll (m : Memory) (a : Nat) : List Byte → Memory
  | [] => m
  | b :: bs => Memory.writeAll (m.write a b) (a + 1) bs

/-! ## Registers (10_state.md R10, R11) -/

/-- `x[r]`. -/
def State.readReg (s : State) (r : Reg) : Word := s.regs[r.val]'r.isLt

/-- `x[r] <- v`. No register is hardwired. -/
def State.writeReg (s : State) (r : Reg) (v : Word) : State :=
  { s with regs := s.regs.set r.val v r.isLt }

/-- `V <- b` (R13). -/
def State.writeV (s : State) (b : Bool) : State := { s with v := b }

/-! ## Data memory (20_memory.md R33, R34) -/

/-- The byte of data memory at a 16-bit address. -/
def State.readData (s : State) (a : Word) : Byte := s.dataMem.read a.toNat

/-- `data[a] <- b`. -/
def State.writeData (s : State) (a : Word) (b : Byte) : State :=
  { s with dataMem := s.dataMem.write a.toNat b }

/-- The two widths of a data access (R36). -/
inductive AccessSize where
  | byte
  | word
deriving DecidableEq, Repr

/-- The number of bytes an access moves, as a word: what a pointer moves by (46_load.md R145). -/
def AccessSize.step : AccessSize → Word
  | .byte => 1
  | .word => 2

/-- `MemRead(addr, n)`: a byte zero-extended, or two bytes little-endian; the address wraps (R33, R37). -/
def State.memRead (s : State) (a : Word) : AccessSize → Word
  | .byte => (s.readData a).setWidth 16
  | .word => wordOfBytes (s.readData a) (s.readData (a + 1))

/-- `MemWrite(addr, n, v)`: the low byte, or two bytes little-endian; the address wraps (R34). -/
def State.memWrite (s : State) (a : Word) (sz : AccessSize) (v : Word) : State :=
  match sz with
  | .byte => s.writeData a (lowByte v)
  | .word => (s.writeData a (lowByte v)).writeData (a + 1) (highByte v)

/-! ## Code memory and fetch (20_memory.md R35, 40_execution_cycle.md R91) -/

/-- `CodeRead(addr)`: the byte of code memory, or nothing at or above `2^17` (R35). -/
def State.codeRead (s : State) (a : Nat) : Option Byte :=
  if a < Config.codeBytes then some (s.codeMem.read a) else none

/-- The code byte addresses a fetch asks for: four from `2 * pc` (R91). -/
def State.fetchAddrs (s : State) : List Nat :=
  [2 * s.pc.toNat, 2 * s.pc.toNat + 1, 2 * s.pc.toNat + 2, 2 * s.pc.toNat + 3]

/-- Fetch: the bytes at those addresses that exist. It never wraps (R91). -/
def State.fetch (s : State) : List Byte := s.fetchAddrs.filterMap s.codeRead

/-- Stores bytes in code memory from the pc's byte address on, as many as exist below `2^17`. -/
def State.placeAtPc (s : State) (bytes : List Byte) : State :=
  let at0 := 2 * s.pc.toNat
  let fitting := bytes.take (Config.codeBytes - at0)
  { s with codeMem := s.codeMem.writeAll at0 fitting }

/-! ## Output streams (41_system_nop.md R106) -/

/-- `emit(stdout, b)`. -/
def State.emitStdout (s : State) (b : Byte) : State := { s with stdout := s.stdout ++ [b] }

/-- `emit(stderr, b)`. -/
def State.emitStderr (s : State) (b : Byte) : State := { s with stderr := s.stderr ++ [b] }

/-- `EXIT <- v`, valid from now on (10_state.md R14). -/
def State.captureExit (s : State) (v : Word) : State := { s with exitCode := v, exitValid := true }

/-! ## The program counter and the status (R94 to R96, R180) -/

/-- The size of a form in program-counter units (R94). -/
def formUnits : Form → Word
  | .short => 1
  | .long => 2

/-- `seq = (pc + size/2) mod 2^16` (R94). -/
def State.seqPc (s : State) (f : Form) : Word := s.pc + formUnits f

/-- `pc <- nextpc` and the status the executor returns (R96). -/
def State.commit (s : State) (next : Word) (st : StepStatus) : State :=
  { s with pc := next, status := st, failSize := none }

/-- The end of an instruction that is no taken control transfer: `nextpc = seq`, status `Ok` (R95, R97). -/
def State.retire (s : State) (f : Form) : State := s.commit (s.seqPc f) .ok

/-- A decode failure: status `InvalidInstruction` with the reported size, nothing else changed (R93). -/
def State.decodeFailed (s : State) (sz : FailSize) : State :=
  { s with status := .invalidInstruction, failSize := some sz }

/-- An opcode the executor has no rule for (R99, R100). `trap`: nothing changes and the status is `Trap`.
`abort`: the core halts for good and returns no status. Unreachable: every constructor of `Instr` has its
rule (R99, log entry 11). -/
def State.unhandledOpcodeUnder (p : Config.TrapPolicy) (s : State) : Result :=
  match p with
  | .trap => .next { s with status := .trap, failSize := none }
  | .abort => .next { s with halted := true }

/-- `unhandledOpcodeUnder` at the policy the core was built with (R100). -/
def State.unhandledOpcode (s : State) : Result := s.unhandledOpcodeUnder Config.trapPolicy

/-! ## Writing a result -/

/-- Writes a register and goes on to the next instruction: the shape of every move, logic and shift. -/
def writeBack (f : Form) (rd : Reg) (v : Word) (s : State) : Result :=
  .next ((s.writeReg rd v).retire f)

end Sys2Proof.Machine
end

