-- ==== Sys2Proof/Machine/Operands.lean ====
section
/-!
DEFINITION. How operands become values: immediates, shift amounts and the three shift functions, the
addressing modes of loads and stores, branch targets (spec/42_move.md, spec/45_shift.md, spec/46_load.md,
spec/47_store.md, spec/48_branch.md).
-/

namespace Sys2Proof.Machine

/-! ## Immediates -/

/-- `zext_16(imm)` of an unsigned immediate (30_encoding.md R61). -/
def zextImm (imm : Nat) : Word := BitVec.ofNat 16 imm

/-- `imm & 0xFFFF`: MOVI's mask (42_move.md R111). -/
def maskedImm (imm : Nat) : Word := BitVec.ofNat 16 (imm &&& 0xFFFF)

/-! ## Shifts (45_shift.md R135) -/

/-- The amount of a register form: the low 4 bits of the register. -/
def shiftByReg (v : Word) : Nat := (v &&& 0xF).toNat

/-- The amount of an immediate form: the low 4 bits of the decoded operand. -/
def shiftByImm (sh : Nat) : Nat := sh &&& 0xF

/-- `lsl16(v, n)`. -/
def lsl16 (v : Word) (n : Nat) : Word := v <<< n

/-- `lsr16(v, n)`. -/
def lsr16 (v : Word) (n : Nat) : Word := v >>> n

/-- `asr16(v, n)`: copies of bit 15 enter at bit 15. -/
def asr16 (v : Word) (n : Nat) : Word := v.sshiftRight n

/-! ## Addressing modes (46_load.md R145, 47_store.md R155) -/

/-- The three addressing modes; there is no fourth (R145 g). -/
inductive AddrMode where
  | plain
  | postinc
  | predec
deriving DecidableEq, Repr

/-- `base`: the pointer, decremented first in the pre-decrement mode. -/
def basePointer (sz : AccessSize) (mode : AddrMode) (ptr : Word) : Word :=
  match mode with
  | .predec => ptr - sz.step
  | .plain => ptr
  | .postinc => ptr

/-- `EA = (base + off) mod 2^16`, the offset counting bytes in every mode (R145, 20_memory.md R37). -/
def effectiveAddr (base : Word) (off : Int) : Word := base + trunc16 off

/-- The effective address of an access through a pointer value. -/
def accessAddr (sz : AccessSize) (mode : AddrMode) (ptr : Word) (off : Int) : Word :=
  effectiveAddr (basePointer sz mode ptr) off

/-- The final value of `x[rd]` of a post-increment load with `rd = ra`: `base + size` or `val + size`,
as `POSTINC_LOAD_SAME_REG` selects (R145). Mark: DESIGN CHOICE, unsafe (log entry 8). -/
def postincSameReg (sz : AccessSize) (base val : Word) : Word :=
  match Config.postincLoadSameReg with
  | .pointerWins => base + sz.step
  | .loadedPlusSize => val + sz.step

/-- The value a store of its own pointer stores: the old pointer, but for a pre-decrement the value
`PREDEC_STORE_SAME_REG` selects (R155). Mark: DESIGN CHOICE, unsafe (log entry 9). -/
def storedPointer (sz : AccessSize) (mode : AddrMode) (ptr : Word) : Word :=
  match mode with
  | .plain => ptr
  | .postinc => ptr
  | .predec =>
    match Config.predecStoreSameReg with
    | .valueAfterDecrement => ptr - sz.step
    | .valueBeforeDecrement => ptr

/-! ## Control transfer (48_branch.md R165) -/

/-- `(pc + off) mod 2^16`: relative to the branch's own address, in words, not scaled (R165 a, b, d). -/
def branchTarget (s : State) (off : Int) : Word := s.pc + trunc16 off

/-- Where a JAL whose target register is its link register goes: `seq`, or the old register value, as
`JAL_SAME_REG` selects (R167). Mark: DESIGN CHOICE, unsafe (log entry 10). -/
def jalSameRegTarget (seq old : Word) : Word :=
  match Config.jalSameReg with
  | .linkFirst => seq
  | .targetFirst => old

end Sys2Proof.Machine
end

