-- ==== Sys2Proof/Machine/Flags.lean ====
section
/-!
DEFINITION. The one flag computation: the common arithmetic rule of the add and subtract families
(spec/43_arith.md R115).
-/

namespace Sys2Proof.Machine

/-- The register result and the overflow flag of an add or subtract. -/
structure ArithResult where
  value : Word
  v : Bool
deriving DecidableEq, Repr

/-- `r16 = trunc16(res)`, and `V` is 1 iff `s16(r16)` is not `res` (R115). -/
def arithResult (res : Int) : ArithResult :=
  { value := trunc16 res, v := decide (s16 (trunc16 res) ≠ res) }

/-- The carry or borrow in: the flag as a number (R115). -/
def carryIn (v : Bool) : Int := if v then 1 else 0

/-- `res = A + B + c` (R115). -/
def addFamily (a b c : Int) : ArithResult := arithResult (a + b + c)

/-- `res = A - B - c` (R115). -/
def subFamily (a b c : Int) : ArithResult := arithResult (a - b - c)

/-- Writes the result and the flag and goes on to the next instruction (R115). -/
def writeArith (f : Form) (rd : Reg) (r : ArithResult) (s : State) : Result :=
  .next (((s.writeReg rd r.value).writeV r.v).retire f)

end Sys2Proof.Machine
end

