-- ==== Sys2Proof/Machine/Arith.lean ====
section
/-!
DEFINITION. ADD, ADDI, ADDC, SUB, SUBI, SUBC (spec/43_arith.md). Each writes `V`; ADDC and SUBC read it
first, as their carry or borrow in. The sources are read before `rd` is written.
-/

namespace Sys2Proof.Machine

/-- ADD, short form (R116). -/
def execAddS (rd ra rb : Reg) (s : State) : Result :=
  writeArith .short rd (addFamily (s16 (s.readReg ra)) (s16 (s.readReg rb)) 0) s

/-- ADD, long form (R116). -/
def execAddL (rd ra rb : Reg) (s : State) : Result :=
  writeArith .long rd (addFamily (s16 (s.readReg ra)) (s16 (s.readReg rb)) 0) s

/-- SUB, short form (R119). -/
def execSubS (rd ra rb : Reg) (s : State) : Result :=
  writeArith .short rd (subFamily (s16 (s.readReg ra)) (s16 (s.readReg rb)) 0) s

/-- SUB, long form (R119). -/
def execSubL (rd ra rb : Reg) (s : State) : Result :=
  writeArith .long rd (subFamily (s16 (s.readReg ra)) (s16 (s.readReg rb)) 0) s

/-- ADDI, short form (R117). -/
def execAddiS (rd ra : Reg) (imm : Nat) (s : State) : Result :=
  writeArith .short rd (addFamily (s16 (s.readReg ra)) (imm : Int) 0) s

/-- ADDI, long form (R117). -/
def execAddiL (rd ra : Reg) (imm : Nat) (s : State) : Result :=
  writeArith .long rd (addFamily (s16 (s.readReg ra)) (imm : Int) 0) s

/-- SUBI, short form (R120). -/
def execSubiS (rd ra : Reg) (imm : Nat) (s : State) : Result :=
  writeArith .short rd (subFamily (s16 (s.readReg ra)) (imm : Int) 0) s

/-- SUBI, long form (R120). -/
def execSubiL (rd ra : Reg) (imm : Nat) (s : State) : Result :=
  writeArith .long rd (subFamily (s16 (s.readReg ra)) (imm : Int) 0) s

/-- ADDC, long form (R118). -/
def execAddcL (rd ra rb : Reg) (s : State) : Result :=
  writeArith .long rd (addFamily (s16 (s.readReg ra)) (s16 (s.readReg rb)) (carryIn s.v)) s

/-- SUBC, long form (R121). -/
def execSubcL (rd ra rb : Reg) (s : State) : Result :=
  writeArith .long rd (subFamily (s16 (s.readReg ra)) (s16 (s.readReg rb)) (carryIn s.v)) s

end Sys2Proof.Machine
end

