-- ==== Sys2Proof/Machine/Branch.lean ====
section
/-!
DEFINITION. BRA, BAL, the six conditional branches, JMP and JAL (spec/48_branch.md). None touches `V` or
data memory; only BAL and JAL write a register, their link. There is no delay slot and no target check.
-/

namespace Sys2Proof.Machine

/-- `nextpc <- target`. -/
def jump (target : Word) (s : State) : Result := .next (s.commit target .ok)

/-- A conditional branch: to `pc + off` when taken, else to `seq` (R165). -/
def branchIf (f : Form) (taken : Bool) (off : Int) (s : State) : Result :=
  .next (s.commit (if taken then branchTarget s off else s.seqPc f) .ok)

/-- `x[rb] <- seq; nextpc <- target`, the target being taken before the link is written (R166, R167). -/
def linkAndJump (f : Form) (rb : Reg) (target : Word) (s : State) : Result :=
  .next ((s.writeReg rb (s.seqPc f)).commit target .ok)

/-- The target of a JAL: `x[rd]`, and with `rd = rb` the choice of `JAL_SAME_REG` (R167). -/
def jalTarget (f : Form) (rd rb : Reg) (s : State) : Word :=
  if rd = rb then jalSameRegTarget (s.seqPc f) (s.readReg rd) else s.readReg rd

/-- BRA, short form (R174). -/
def execBraS (off : Int) (s : State) : Result :=
  jump (branchTarget s off) s

/-- BRA, long form (R174). -/
def execBraL (off : Int) (s : State) : Result :=
  jump (branchTarget s off) s

/-- BAL, short form (R166). -/
def execBalS (off : Int) (rb : Reg) (s : State) : Result :=
  linkAndJump .short rb (branchTarget s off) s

/-- BAL, long form (R166). -/
def execBalL (off : Int) (rb : Reg) (s : State) : Result :=
  linkAndJump .long rb (branchTarget s off) s

/-- BEQ, short form (R168). -/
def execBeqS (off : Int) (ra rb : Reg) (s : State) : Result :=
  branchIf .short (decide (s.readReg ra = s.readReg rb)) off s

/-- BEQ, long form (R168). -/
def execBeqL (off : Int) (ra rb : Reg) (s : State) : Result :=
  branchIf .long (decide (s.readReg ra = s.readReg rb)) off s

/-- BNE, short form (R169). -/
def execBneS (off : Int) (ra rb : Reg) (s : State) : Result :=
  branchIf .short (decide (s.readReg ra ≠ s.readReg rb)) off s

/-- BNE, long form (R169). -/
def execBneL (off : Int) (ra rb : Reg) (s : State) : Result :=
  branchIf .long (decide (s.readReg ra ≠ s.readReg rb)) off s

/-- BLTS, short form (R170). -/
def execBltsS (off : Int) (ra rb : Reg) (s : State) : Result :=
  branchIf .short (decide (s16 (s.readReg ra) < s16 (s.readReg rb))) off s

/-- BLTS, long form (R170). -/
def execBltsL (off : Int) (ra rb : Reg) (s : State) : Result :=
  branchIf .long (decide (s16 (s.readReg ra) < s16 (s.readReg rb))) off s

/-- BGTS, short form (R171). -/
def execBgtsS (off : Int) (ra rb : Reg) (s : State) : Result :=
  branchIf .short (decide (s16 (s.readReg ra) > s16 (s.readReg rb))) off s

/-- BGTS, long form (R171). -/
def execBgtsL (off : Int) (ra rb : Reg) (s : State) : Result :=
  branchIf .long (decide (s16 (s.readReg ra) > s16 (s.readReg rb))) off s

/-- BLTU, short form (R172). -/
def execBltuS (off : Int) (ra rb : Reg) (s : State) : Result :=
  branchIf .short (decide ((s.readReg ra).toNat < (s.readReg rb).toNat)) off s

/-- BLTU, long form (R172). -/
def execBltuL (off : Int) (ra rb : Reg) (s : State) : Result :=
  branchIf .long (decide ((s.readReg ra).toNat < (s.readReg rb).toNat)) off s

/-- BGTU, short form (R173). -/
def execBgtuS (off : Int) (ra rb : Reg) (s : State) : Result :=
  branchIf .short (decide ((s.readReg ra).toNat > (s.readReg rb).toNat)) off s

/-- BGTU, long form (R173). -/
def execBgtuL (off : Int) (ra rb : Reg) (s : State) : Result :=
  branchIf .long (decide ((s.readReg ra).toNat > (s.readReg rb).toNat)) off s

/-- JMP, short form (R175). -/
def execJmpS (rd : Reg) (s : State) : Result :=
  jump (s.readReg rd) s

/-- JMP, long form (R175). -/
def execJmpL (rd : Reg) (s : State) : Result :=
  jump (s.readReg rd) s

/-- JAL, short form (R167). -/
def execJalS (rd rb : Reg) (s : State) : Result :=
  linkAndJump .short rb (jalTarget .short rd rb s) s

/-- JAL, long form (R167). -/
def execJalL (rd rb : Reg) (s : State) : Result :=
  linkAndJump .long rb (jalTarget .long rd rb s) s

end Sys2Proof.Machine
end

