-- ==== Sys2Proof/Machine/Load.lean ====
section
/-!
DEFINITION. LDB and LDW with plain, post-increment and pre-decrement addressing (spec/46_load.md). All read
data memory; none touches `V`, the pointer update included.
-/

namespace Sys2Proof.Machine

/-- The registers after a load of `val` through the pointer `ra`, `base` being the possibly decremented
pointer (R145). Pre-decrement commits the pointer first, so the loaded value wins when `rd = ra`;
post-increment writes the pointer last, and with `rd = ra` the outcome is open (`postincSameReg`). -/
def loadWrite (sz : AccessSize) (mode : AddrMode) (rd ra : Reg) (base val : Word) (s : State) : State :=
  match mode with
  | .plain => s.writeReg rd val
  | .predec => (s.writeReg ra base).writeReg rd val
  | .postinc =>
    if rd = ra then s.writeReg rd (postincSameReg sz base val)
    else (s.writeReg rd val).writeReg ra (base + sz.step)

/-- The common load rule (R145). -/
def load (f : Form) (sz : AccessSize) (mode : AddrMode) (rd ra : Reg) (off : Int) (s : State) : Result :=
  let base := basePointer sz mode (s.readReg ra)
  let val := s.memRead (accessAddr sz mode (s.readReg ra) off) sz
  .next ((loadWrite sz mode rd ra base val s).retire f)

/-- LDB, short form (R146). -/
def execLdbS (rd ra : Reg) (off : Int) (s : State) : Result :=
  load .short .byte .plain rd ra off s

/-- LDB, long form (R146). -/
def execLdbL (rd ra : Reg) (off : Int) (s : State) : Result :=
  load .long .byte .plain rd ra off s

/-- LDB_POSTINC, short form (R148). -/
def execLdbPostincS (rd ra : Reg) (off : Int) (s : State) : Result :=
  load .short .byte .postinc rd ra off s

/-- LDB_POSTINC, long form (R148). -/
def execLdbPostincL (rd ra : Reg) (off : Int) (s : State) : Result :=
  load .long .byte .postinc rd ra off s

/-- LDB_PREDEC, short form (R150). -/
def execLdbPredecS (rd ra : Reg) (off : Int) (s : State) : Result :=
  load .short .byte .predec rd ra off s

/-- LDB_PREDEC, long form (R150). -/
def execLdbPredecL (rd ra : Reg) (off : Int) (s : State) : Result :=
  load .long .byte .predec rd ra off s

/-- LDW, short form (R147). -/
def execLdwS (rd ra : Reg) (off : Int) (s : State) : Result :=
  load .short .word .plain rd ra off s

/-- LDW, long form (R147). -/
def execLdwL (rd ra : Reg) (off : Int) (s : State) : Result :=
  load .long .word .plain rd ra off s

/-- LDW_POSTINC, short form (R149). -/
def execLdwPostincS (rd ra : Reg) (off : Int) (s : State) : Result :=
  load .short .word .postinc rd ra off s

/-- LDW_POSTINC, long form (R149). -/
def execLdwPostincL (rd ra : Reg) (off : Int) (s : State) : Result :=
  load .long .word .postinc rd ra off s

/-- LDW_PREDEC, short form (R151). -/
def execLdwPredecS (rd ra : Reg) (off : Int) (s : State) : Result :=
  load .short .word .predec rd ra off s

/-- LDW_PREDEC, long form (R151). -/
def execLdwPredecL (rd ra : Reg) (off : Int) (s : State) : Result :=
  load .long .word .predec rd ra off s

end Sys2Proof.Machine
end

