-- ==== Sys2Proof/Machine/Logic.lean ====
section
/-!
DEFINITION. AND, OR, XOR, ANDI, ORI, XORI (spec/44_logic.md). None touches `V`.
-/

namespace Sys2Proof.Machine

/-- AND, short form (R125). -/
def execAndS (rd ra rb : Reg) (s : State) : Result :=
  writeBack .short rd (s.readReg ra &&& s.readReg rb) s

/-- AND, long form (R125). -/
def execAndL (rd ra rb : Reg) (s : State) : Result :=
  writeBack .long rd (s.readReg ra &&& s.readReg rb) s

/-- OR, short form (R126). -/
def execOrS (rd ra rb : Reg) (s : State) : Result :=
  writeBack .short rd (s.readReg ra ||| s.readReg rb) s

/-- OR, long form (R126). -/
def execOrL (rd ra rb : Reg) (s : State) : Result :=
  writeBack .long rd (s.readReg ra ||| s.readReg rb) s

/-- XOR, short form (R127). -/
def execXorS (rd ra rb : Reg) (s : State) : Result :=
  writeBack .short rd (s.readReg ra ^^^ s.readReg rb) s

/-- XOR, long form (R127). -/
def execXorL (rd ra rb : Reg) (s : State) : Result :=
  writeBack .long rd (s.readReg ra ^^^ s.readReg rb) s

/-- ANDI, long form (R128). -/
def execAndiL (rd ra : Reg) (imm : Nat) (s : State) : Result :=
  writeBack .long rd (s.readReg ra &&& zextImm imm) s

/-- ORI, long form (R129). -/
def execOriL (rd ra : Reg) (imm : Nat) (s : State) : Result :=
  writeBack .long rd (s.readReg ra ||| zextImm imm) s

/-- XORI, long form (R130). -/
def execXoriL (rd ra : Reg) (imm : Nat) (s : State) : Result :=
  writeBack .long rd (s.readReg ra ^^^ zextImm imm) s

end Sys2Proof.Machine
end

