-- ==== Sys2Proof/Machine/Move.lean ====
section
/-!
DEFINITION. MOV and MOVI (spec/42_move.md). Neither touches `V`.
-/

namespace Sys2Proof.Machine

/-- MOV, short form (R110). -/
def execMovS (rd ra : Reg) (s : State) : Result :=
  writeBack .short rd (s.readReg ra) s

/-- MOV, long form (R110). -/
def execMovL (rd ra : Reg) (s : State) : Result :=
  writeBack .long rd (s.readReg ra) s

/-- MOVI, short form (R111). -/
def execMoviS (rd : Reg) (imm : Nat) (s : State) : Result :=
  writeBack .short rd (maskedImm imm) s

/-- MOVI, long form (R111). -/
def execMoviL (rd : Reg) (imm : Nat) (s : State) : Result :=
  writeBack .long rd (maskedImm imm) s

end Sys2Proof.Machine
end

