-- ==== Sys2Proof/Machine/Shift.lean ====
section
/-!
DEFINITION. ASR, LSL, LSR by register and ASRI, LSLI, LSRI by immediate (spec/45_shift.md). None touches `V`.
-/

namespace Sys2Proof.Machine

/-- ASR, short form (R136). -/
def execAsrS (rd ra rb : Reg) (s : State) : Result :=
  writeBack .short rd (asr16 (s.readReg ra) (shiftByReg (s.readReg rb))) s

/-- ASR, long form (R136). -/
def execAsrL (rd ra rb : Reg) (s : State) : Result :=
  writeBack .long rd (asr16 (s.readReg ra) (shiftByReg (s.readReg rb))) s

/-- LSL, short form (R137). -/
def execLslS (rd ra rb : Reg) (s : State) : Result :=
  writeBack .short rd (lsl16 (s.readReg ra) (shiftByReg (s.readReg rb))) s

/-- LSL, long form (R137). -/
def execLslL (rd ra rb : Reg) (s : State) : Result :=
  writeBack .long rd (lsl16 (s.readReg ra) (shiftByReg (s.readReg rb))) s

/-- LSR, short form (R138). -/
def execLsrS (rd ra rb : Reg) (s : State) : Result :=
  writeBack .short rd (lsr16 (s.readReg ra) (shiftByReg (s.readReg rb))) s

/-- LSR, long form (R138). -/
def execLsrL (rd ra rb : Reg) (s : State) : Result :=
  writeBack .long rd (lsr16 (s.readReg ra) (shiftByReg (s.readReg rb))) s

/-- ASRI, short form (R139). -/
def execAsriS (rd ra : Reg) (sh : Nat) (s : State) : Result :=
  writeBack .short rd (asr16 (s.readReg ra) (shiftByImm sh)) s

/-- ASRI, long form (R139). -/
def execAsriL (rd ra : Reg) (sh : Nat) (s : State) : Result :=
  writeBack .long rd (asr16 (s.readReg ra) (shiftByImm sh)) s

/-- LSLI, short form (R140). -/
def execLsliS (rd ra : Reg) (sh : Nat) (s : State) : Result :=
  writeBack .short rd (lsl16 (s.readReg ra) (shiftByImm sh)) s

/-- LSLI, long form (R140). -/
def execLsliL (rd ra : Reg) (sh : Nat) (s : State) : Result :=
  writeBack .long rd (lsl16 (s.readReg ra) (shiftByImm sh)) s

/-- LSRI, short form (R141). -/
def execLsriS (rd ra : Reg) (sh : Nat) (s : State) : Result :=
  writeBack .short rd (lsr16 (s.readReg ra) (shiftByImm sh)) s

/-- LSRI, long form (R141). -/
def execLsriL (rd ra : Reg) (sh : Nat) (s : State) : Result :=
  writeBack .long rd (lsr16 (s.readReg ra) (shiftByImm sh)) s

end Sys2Proof.Machine
end

