-- ==== Sys2Proof/Machine/Store.lean ====
section
/-!
DEFINITION. STB and STW with plain, post-increment and pre-decrement addressing (spec/47_store.md). `rd` is
the pointer, `ra` the value. All write data memory; none touches `V`.
-/

namespace Sys2Proof.Machine

/-- The value a store stores: `x[ra]`, and when the value register is the pointer, what R155's table says
(`storedPointer`). -/
def storedValue (sz : AccessSize) (mode : AddrMode) (rd ra : Reg) (s : State) : Word :=
  if ra = rd then storedPointer sz mode (s.readReg rd) else s.readReg ra

/-- The pointer register after a store: moved by the access size, never by the offset (R155). -/
def storePointer (sz : AccessSize) (mode : AddrMode) (rd : Reg) (s : State) : State :=
  match mode with
  | .plain => s
  | .predec => s.writeReg rd (s.readReg rd - sz.step)
  | .postinc => s.writeReg rd (s.readReg rd + sz.step)

/-- The common store rule (R155). The address and the value are taken from the registers before the
pointer is written; writing the pointer last cannot be told from writing it first. -/
def store (f : Form) (sz : AccessSize) (mode : AddrMode) (rd : Reg) (off : Int) (ra : Reg) (s : State) : Result :=
  let ea := accessAddr sz mode (s.readReg rd) off
  let val := storedValue sz mode rd ra s
  .next ((storePointer sz mode rd (s.memWrite ea sz val)).retire f)

/-- STB, short form (R156). -/
def execStbS (rd : Reg) (off : Int) (ra : Reg) (s : State) : Result :=
  store .short .byte .plain rd off ra s

/-- STB, long form (R156). -/
def execStbL (rd : Reg) (off : Int) (ra : Reg) (s : State) : Result :=
  store .long .byte .plain rd off ra s

/-- STB_POSTINC, short form (R158). -/
def execStbPostincS (rd : Reg) (off : Int) (ra : Reg) (s : State) : Result :=
  store .short .byte .postinc rd off ra s

/-- STB_POSTINC, long form (R158). -/
def execStbPostincL (rd : Reg) (off : Int) (ra : Reg) (s : State) : Result :=
  store .long .byte .postinc rd off ra s

/-- STB_PREDEC, short form (R160). -/
def execStbPredecS (rd : Reg) (off : Int) (ra : Reg) (s : State) : Result :=
  store .short .byte .predec rd off ra s

/-- STB_PREDEC, long form (R160). -/
def execStbPredecL (rd : Reg) (off : Int) (ra : Reg) (s : State) : Result :=
  store .long .byte .predec rd off ra s

/-- STW, short form (R157). -/
def execStwS (rd : Reg) (off : Int) (ra : Reg) (s : State) : Result :=
  store .short .word .plain rd off ra s

/-- STW, long form (R157). -/
def execStwL (rd : Reg) (off : Int) (ra : Reg) (s : State) : Result :=
  store .long .word .plain rd off ra s

/-- STW_POSTINC, short form (R159). -/
def execStwPostincS (rd : Reg) (off : Int) (ra : Reg) (s : State) : Result :=
  store .short .word .postinc rd off ra s

/-- STW_POSTINC, long form (R159). -/
def execStwPostincL (rd : Reg) (off : Int) (ra : Reg) (s : State) : Result :=
  store .long .word .postinc rd off ra s

/-- STW_PREDEC, short form (R161). -/
def execStwPredecS (rd : Reg) (off : Int) (ra : Reg) (s : State) : Result :=
  store .short .word .predec rd off ra s

/-- STW_PREDEC, long form (R161). -/
def execStwPredecL (rd : Reg) (off : Int) (ra : Reg) (s : State) : Result :=
  store .long .word .predec rd off ra s

end Sys2Proof.Machine
end

