-- ==== Sys2Proof/Machine/System.lean ====
section
/-!
DEFINITION. The syscall-style NOP, the one system instruction (spec/41_system_nop.md R105, R106).
-/

namespace Sys2Proof.Machine

/-- The command table of the NOP; `pc` is committed to `seq` by every command (R105, 40_execution_cycle.md
R96). Commands 0, 1 and 5 on do not read the register. -/
def nopCommand (f : Form) (rd : Reg) (cmd : Nat) (s : State) : Result :=
  match cmd with
  | 0 => .next (s.commit (s.seqPc f) .breakpoint)
  | 1 => .next (s.retire f)
  | 2 => .next ((s.captureExit (s.readReg rd)).commit (s.seqPc f) .quit)
  | 3 => .next ((s.emitStdout (lowByte (s.readReg rd))).retire f)
  | 4 => .next ((s.emitStderr (lowByte (s.readReg rd))).retire f)
  | _ => .next (s.retire f)

/-- NOP, short form (R105). -/
def execNopS (rd : Reg) (cmd : Nat) (s : State) : Result :=
  nopCommand .short rd cmd s

/-- NOP, long form (R105). -/
def execNopL (rd : Reg) (cmd : Nat) (s : State) : Result :=
  nopCommand .long rd cmd s

end Sys2Proof.Machine
end

