-- ==== Sys2Proof/Machine/Dispatch.lean ====
section
/-!
DEFINITION. The executor's dispatch: one arm per constructor of `Instr`, each one direct call of the
instruction's meaning (spec/40_execution_cycle.md R95).
-/

namespace Sys2Proof.Machine

def exec (i : Instr) (s : State) : Host.Outcome State Fault Refusal :=
  match i with
  | .nopS rd cmd => Sys2Proof.Machine.execNopS rd cmd s
  | .nopL rd cmd => Sys2Proof.Machine.execNopL rd cmd s
  | .addS rd ra rb => Sys2Proof.Machine.execAddS rd ra rb s
  | .addL rd ra rb => Sys2Proof.Machine.execAddL rd ra rb s
  | .subS rd ra rb => Sys2Proof.Machine.execSubS rd ra rb s
  | .subL rd ra rb => Sys2Proof.Machine.execSubL rd ra rb s
  | .andS rd ra rb => Sys2Proof.Machine.execAndS rd ra rb s
  | .andL rd ra rb => Sys2Proof.Machine.execAndL rd ra rb s
  | .orS rd ra rb => Sys2Proof.Machine.execOrS rd ra rb s
  | .orL rd ra rb => Sys2Proof.Machine.execOrL rd ra rb s
  | .xorS rd ra rb => Sys2Proof.Machine.execXorS rd ra rb s
  | .xorL rd ra rb => Sys2Proof.Machine.execXorL rd ra rb s
  | .asrS rd ra rb => Sys2Proof.Machine.execAsrS rd ra rb s
  | .asrL rd ra rb => Sys2Proof.Machine.execAsrL rd ra rb s
  | .lslS rd ra rb => Sys2Proof.Machine.execLslS rd ra rb s
  | .lslL rd ra rb => Sys2Proof.Machine.execLslL rd ra rb s
  | .lsrS rd ra rb => Sys2Proof.Machine.execLsrS rd ra rb s
  | .lsrL rd ra rb => Sys2Proof.Machine.execLsrL rd ra rb s
  | .movS rd ra => Sys2Proof.Machine.execMovS rd ra s
  | .movL rd ra => Sys2Proof.Machine.execMovL rd ra s
  | .addiS rd ra imm => Sys2Proof.Machine.execAddiS rd ra imm s
  | .addiL rd ra imm => Sys2Proof.Machine.execAddiL rd ra imm s
  | .subiS rd ra imm => Sys2Proof.Machine.execSubiS rd ra imm s
  | .subiL rd ra imm => Sys2Proof.Machine.execSubiL rd ra imm s
  | .asriS rd ra sh => Sys2Proof.Machine.execAsriS rd ra sh s
  | .asriL rd ra sh => Sys2Proof.Machine.execAsriL rd ra sh s
  | .lsliS rd ra sh => Sys2Proof.Machine.execLsliS rd ra sh s
  | .lsliL rd ra sh => Sys2Proof.Machine.execLsliL rd ra sh s
  | .lsriS rd ra sh => Sys2Proof.Machine.execLsriS rd ra sh s
  | .lsriL rd ra sh => Sys2Proof.Machine.execLsriL rd ra sh s
  | .moviS rd imm => Sys2Proof.Machine.execMoviS rd imm s
  | .moviL rd imm => Sys2Proof.Machine.execMoviL rd imm s
  | .addcL rd ra rb => Sys2Proof.Machine.execAddcL rd ra rb s
  | .subcL rd ra rb => Sys2Proof.Machine.execSubcL rd ra rb s
  | .andiL rd ra imm => Sys2Proof.Machine.execAndiL rd ra imm s
  | .oriL rd ra imm => Sys2Proof.Machine.execOriL rd ra imm s
  | .xoriL rd ra imm => Sys2Proof.Machine.execXoriL rd ra imm s
  | .ldbS rd ra off => Sys2Proof.Machine.execLdbS rd ra off s
  | .ldbL rd ra off => Sys2Proof.Machine.execLdbL rd ra off s
  | .ldbPostincS rd ra off => Sys2Proof.Machine.execLdbPostincS rd ra off s
  | .ldbPostincL rd ra off => Sys2Proof.Machine.execLdbPostincL rd ra off s
  | .ldbPredecS rd ra off => Sys2Proof.Machine.execLdbPredecS rd ra off s
  | .ldbPredecL rd ra off => Sys2Proof.Machine.execLdbPredecL rd ra off s
  | .ldwS rd ra off => Sys2Proof.Machine.execLdwS rd ra off s
  | .ldwL rd ra off => Sys2Proof.Machine.execLdwL rd ra off s
  | .ldwPostincS rd ra off => Sys2Proof.Machine.execLdwPostincS rd ra off s
  | .ldwPostincL rd ra off => Sys2Proof.Machine.execLdwPostincL rd ra off s
  | .ldwPredecS rd ra off => Sys2Proof.Machine.execLdwPredecS rd ra off s
  | .ldwPredecL rd ra off => Sys2Proof.Machine.execLdwPredecL rd ra off s
  | .stbS rd off ra => Sys2Proof.Machine.execStbS rd off ra s
  | .stbL rd off ra => Sys2Proof.Machine.execStbL rd off ra s
  | .stbPostincS rd off ra => Sys2Proof.Machine.execStbPostincS rd off ra s
  | .stbPostincL rd off ra => Sys2Proof.Machine.execStbPostincL rd off ra s
  | .stbPredecS rd off ra => Sys2Proof.Machine.execStbPredecS rd off ra s
  | .stbPredecL rd off ra => Sys2Proof.Machine.execStbPredecL rd off ra s
  | .stwS rd off ra => Sys2Proof.Machine.execStwS rd off ra s
  | .stwL rd off ra => Sys2Proof.Machine.execStwL rd off ra s
  | .stwPostincS rd off ra => Sys2Proof.Machine.execStwPostincS rd off ra s
  | .stwPostincL rd off ra => Sys2Proof.Machine.execStwPostincL rd off ra s
  | .stwPredecS rd off ra => Sys2Proof.Machine.execStwPredecS rd off ra s
  | .stwPredecL rd off ra => Sys2Proof.Machine.execStwPredecL rd off ra s
  | .braS off => Sys2Proof.Machine.execBraS off s
  | .braL off => Sys2Proof.Machine.execBraL off s
  | .balS off rb => Sys2Proof.Machine.execBalS off rb s
  | .balL off rb => Sys2Proof.Machine.execBalL off rb s
  | .beqS off ra rb => Sys2Proof.Machine.execBeqS off ra rb s
  | .beqL off ra rb => Sys2Proof.Machine.execBeqL off ra rb s
  | .bneS off ra rb => Sys2Proof.Machine.execBneS off ra rb s
  | .bneL off ra rb => Sys2Proof.Machine.execBneL off ra rb s
  | .bltsS off ra rb => Sys2Proof.Machine.execBltsS off ra rb s
  | .bltsL off ra rb => Sys2Proof.Machine.execBltsL off ra rb s
  | .bgtsS off ra rb => Sys2Proof.Machine.execBgtsS off ra rb s
  | .bgtsL off ra rb => Sys2Proof.Machine.execBgtsL off ra rb s
  | .bltuS off ra rb => Sys2Proof.Machine.execBltuS off ra rb s
  | .bltuL off ra rb => Sys2Proof.Machine.execBltuL off ra rb s
  | .bgtuS off ra rb => Sys2Proof.Machine.execBgtuS off ra rb s
  | .bgtuL off ra rb => Sys2Proof.Machine.execBgtuL off ra rb s
  | .jmpS rd => Sys2Proof.Machine.execJmpS rd s
  | .jmpL rd => Sys2Proof.Machine.execJmpL rd s
  | .jalS rd rb => Sys2Proof.Machine.execJalS rd rb s
  | .jalL rd rb => Sys2Proof.Machine.execJalL rd rb s

end Sys2Proof.Machine
end

