-- ==== Sys2Proof/Machine/Step.lean ====
section
/-!
DEFINITION. One step of the core: fetch, decode, execute and commit (spec/40_execution_cycle.md R90), and
the placing of an instruction where the next step fetches it.
-/

namespace Sys2Proof.Machine

/-- `step()` (R90). A decode failure changes nothing but the outputs (R93); a decoded instruction is
executed, its commit being part of `exec` (R96, log entry 15). A core halted for good accepts no step
(R100). -/
def step (s : State) : Host.Outcome State Fault Refusal :=
  if s.halted then .fault .halted
  else
    match decode s.fetch with
    | .success i _ => exec i s
    | .failure r => .next (s.decodeFailed r.size)

/-- The state with the instruction word `w` (the bits above `nbits` zero) stored where the next step fetches,
as the host's `loadCodeSection` before the step would put it (R208, log entry 12). -/
def State.withFetchWord (s : State) (nbits w : Nat) : State :=
  s.placeAtPc (wordBytes (BitVec.ofNat 32 (w % 2 ^ nbits)))

end Sys2Proof.Machine
end

