-- ==== Sys2Proof/Machine/Boundary.lean ====
section
/-!
DEFINITION. What the host can do between steps (spec/10_state.md R22, spec/20_memory.md R45,
spec/40_execution_cycle.md R101, spec/70_reset_and_hazards.md R207, R208, R212).
-/

namespace Sys2Proof.Machine

/-! ## Section loading (20_memory.md R45, 70_reset_and_hazards.md R207) -/

/-- Writes `bytes[k]` to byte address `address + k` of a memory of `limit` bytes; a section that runs past
the top is refused (no value), neither wrapped nor cut (R207). An empty section at an address up to the top
changes nothing; at an address above it R207's inequality and its sentence on empty sections disagree, and
the model follows the inequality.
Mark: DESIGN CHOICE, safe: what follows an empty section there cannot be proved (log entry 19). -/
def loadSection (limit : Nat) (bytes : List Byte) (address : Nat) (m : Memory) : Option Memory :=
  if address + bytes.length ≤ limit then some (m.writeAll address bytes) else none

/-- `loadCodeSection(bytes, address)`. -/
def State.loadCodeSection (s : State) (bytes : List Byte) (address : Nat) : Option State :=
  (loadSection Config.codeBytes bytes address s.codeMem).map fun m => { s with codeMem := m }

/-- `loadDataSection(bytes, address)`. -/
def State.loadDataSection (s : State) (bytes : List Byte) (address : Nat) : Option State :=
  (loadSection Config.dataBytes bytes address s.dataMem).map fun m => { s with dataMem := m }

/-! ## The host's ports (10_state.md R22; D1) -/

/-- `getReg(i) -> u16`. -/
def State.getReg (s : State) (i : Reg) : Word := s.readReg i

/-- `setReg(i, v)`: stores `trunc16(v)` with no other effect (R11, R22). -/
def State.setReg (s : State) (i : Reg) (v : Int) : State := s.writeReg i (trunc16 v)

/-- `getExitCode() -> u16`: no value before the first Quit (R14, 70_reset_and_hazards.md R204). -/
def State.getExitCode (s : State) : Option Word := if s.exitValid then some s.exitCode else none

/-- `getPC()`. -/
def State.getPC (s : State) : Word := s.pc

/-- `setPC(v)`: the entry point, or a skip past an invalid word (R93, R201). -/
def State.setPC (s : State) (v : Word) : State := { s with pc := v }

/-- `getOverflow()`. -/
def State.getOverflow (s : State) : Bool := s.v

/-- `setOverflow(bit)`. -/
def State.setOverflow (s : State) (b : Bool) : State := s.writeV b

/-- `getDataMem(addr)`. -/
def State.getDataMem (s : State) (a : Word) : Byte := s.readData a

/-- `setDataMem(addr, byte)`. -/
def State.setDataMem (s : State) (a : Word) (b : Byte) : State := s.writeData a b

/-- `getCodeMem(addr)`, a 17-bit byte address (D5). -/
def State.getCodeMem (s : State) (a : BitVec 17) : Byte := s.codeMem.read a.toNat

/-- `setCodeMem(addr, byte)`. -/
def State.setCodeMem (s : State) (a : BitVec 17) (b : Byte) : State :=
  { s with codeMem := s.codeMem.write a.toNat b }

/-! ## The run loop (40_execution_cycle.md R101, R104) -/

/-- How far `run` came. -/
inductive RunOutcome where
  /-- The run ended: the first step whose status is not `Ok` left this state (R104). -/
  | ended (t : State)
  /-- Every step so far returned `Ok`: the run goes on. -/
  | running (t : State)
  /-- The core is halted for good and accepts no step (R100). -/
  | stopped (f : Fault)
  /-- An instruction has no meaning; no arm of `exec` answers so. -/
  | refused (r : Refusal)
deriving DecidableEq, Repr

/-- `run()` for at most `fuel` steps: `step` repeated until a status other than `Ok` (R101). The loop itself
has no step limit, so fuel stands for how long one looks (log entry 18). -/
def run : Nat → State → RunOutcome
  | 0, s => .running s
  | fuel + 1, s =>
    match step s with
    | .next t => if t.status = .ok then run fuel t else .ended t
    | .fault f => .stopped f
    | .refused r => .refused r

/-! ## Launch (70_reset_and_hazards.md R208) -/

/-- What the host sets up before the first step. -/
structure Launch where
  codeSections : List (List Byte × Nat)
  dataSections : List (List Byte × Nat)
  entry : Word
  regs : List (Reg × Int)
  overflow : Option Bool
deriving DecidableEq, Repr

/-- The launch state: reset, then the sections in order, the entry point, the registers and the flag
(R208). No value when a section is refused. -/
def launch (l : Launch) : Option State := do
  let s ← l.codeSections.foldlM (fun s sec => s.loadCodeSection sec.1 sec.2) State.reset
  let s ← l.dataSections.foldlM (fun s sec => s.loadDataSection sec.1 sec.2) s
  let s := l.regs.foldl (fun s r => s.setReg r.1 r.2) (s.setPC l.entry)
  return match l.overflow with
    | some b => s.setOverflow b
    | none => s

end Sys2Proof.Machine
end

