-- ==== Sys2Proof/Safety.lean ====
section
/-!
DEFINITION. What counts as a well-formed state and a safe run, and the vocabulary the statements use: what an
instruction may write, where it stores, and what a state looks like after it.
-/

namespace Sys2Proof.Safety

open Sys2Proof.Machine

/-! ## Well-formed states and safe runs -/

/-- The invariant of the model: both memories are in their canonical form, and a size is reported beside the
status `InvalidInstruction` and beside no other (20_memory.md, 60_exceptions.md R180). -/
def Inv (s : State) : Prop :=
  s.codeMem.wf Config.codeBytes = true ∧ s.dataMem.wf Config.dataBytes = true ∧
    (s.failSize.isSome = true ↔ s.status = .invalidInstruction)

/-- The statuses that report an error; Breakpoint and Quit are "not errors" (60_exceptions.md R180). -/
def isError : StepStatus → Bool
  | .ok => false
  | .breakpoint => false
  | .quit => false
  | .trap => true
  | .invalidInstruction => true

/-- `n` steps each of which returns `Ok`, and the state after them. -/
def okSteps : Nat → State → Option State
  | 0, s => some s
  | n + 1, s =>
    match step s with
    | .next t => if t.status = .ok then okSteps n t else none
    | .fault _ => none
    | .refused _ => none

/-- A run of at most `fuel` steps is safe: it does not end in an error status and the machine does not stop. -/
def SafeRun (fuel : Nat) (s : State) : Prop :=
  match run fuel s with
  | .ended t => isError t.status = false
  | .running _ => True
  | .stopped _ => False
  | .refused _ => False

/-! ## What an instruction may write -/

/-- The registers the spec says an instruction may write: its destination, the pointer its addressing mode
moves, the link of a call (spec/42_move.md to 48_branch.md). -/
def mayWrite (i : Instr) : List Reg :=
  match i.opcode, i.operands with
  | .ldbPostinc, [.reg rd, .reg ra, _] => [rd, ra]
  | .ldbPredec, [.reg rd, .reg ra, _] => [rd, ra]
  | .ldwPostinc, [.reg rd, .reg ra, _] => [rd, ra]
  | .ldwPredec, [.reg rd, .reg ra, _] => [rd, ra]
  | .bal, [_, .reg rb] => [rb]
  | .jal, [_, .reg rb] => [rb]
  | .nop, _ => []
  | .stb, _ => []
  | .stw, _ => []
  | .bra, _ => []
  | .jmp, _ => []
  | .beq, _ => []
  | .bne, _ => []
  | .blts, _ => []
  | .bgts, _ => []
  | .bltu, _ => []
  | .bgtu, _ => []
  | _, .reg rd :: _ => [rd]
  | _, _ => []

/-- The instructions that write `V`: ADD, ADDI, ADDC, SUB, SUBI, SUBC and no other (10_state.md R13). -/
def writesV (i : Instr) : Bool :=
  i.opcode ∈ [Opcode.add, .addi, .addc, .sub, .subi, .subc]

/-- The addresses of the data bytes an instruction stores to, computed from the state before it
(47_store.md R155): none unless it is a store. -/
def storedAt (i : Instr) (s : State) : List Word :=
  match i.opcode, i.operands with
  | .stb, [.reg rd, .simm off, _] => [accessAddr .byte .plain (s.readReg rd) off]
  | .stbPostinc, [.reg rd, .simm off, _] => [accessAddr .byte .postinc (s.readReg rd) off]
  | .stbPredec, [.reg rd, .simm off, _] => [accessAddr .byte .predec (s.readReg rd) off]
  | .stw, [.reg rd, .simm off, _] => both (accessAddr .word .plain (s.readReg rd) off)
  | .stwPostinc, [.reg rd, .simm off, _] => both (accessAddr .word .postinc (s.readReg rd) off)
  | .stwPredec, [.reg rd, .simm off, _] => both (accessAddr .word .predec (s.readReg rd) off)
  | _, _ => []
where
  /-- The two addresses of a word access; the second wraps. -/
  both (a : Word) : List Word := [a, a + 1]

/-- The status an instruction returns: `Ok`, but `Breakpoint` for NOP command 0 and `Quit` for NOP command 2
(40_execution_cycle.md R97). -/
def returnedStatus (i : Instr) : StepStatus :=
  match i.opcode, i.operands with
  | .nop, [_, .uimm 0] => .breakpoint
  | .nop, [_, .uimm 2] => .quit
  | _, _ => .ok

/-! ## What a state looks like after an instruction -/

/-- A register reading with one register changed. -/
def withReg (f : Reg → Word) (rd : Reg) (v : Word) : Reg → Word := fun r => if r = rd then v else f r

/-- Code memory, `EXIT`, the streams and the halt bit are as before. -/
def SameElsewhere (s t : State) : Prop :=
  t.codeMem = s.codeMem ∧ t.exitCode = s.exitCode ∧ t.exitValid = s.exitValid ∧ t.stdout = s.stdout ∧
    t.stderr = s.stderr ∧ t.halted = s.halted

/-- The instruction completes with status `Ok` in a state that reads `regs`, `v`, `pc` and `data` and is as
before everywhere else. -/
def EndsWith (i : Instr) (s : State) (regs : Reg → Word) (v : Bool) (pc : Word) (data : Word → Byte) : Prop :=
  ∃ t, exec i s = .next t ∧ (∀ r, t.readReg r = regs r) ∧ t.v = v ∧ t.pc = pc ∧
    (∀ a, t.readData a = data a) ∧ t.status = .ok ∧ t.failSize = none ∧ SameElsewhere s t

/-- The instruction completes, having written `val` to `rd` and moved on by `len` words; nothing else changed. -/
def Writes (i : Instr) (s : State) (rd : Reg) (val : Word) (len : Word) : Prop :=
  EndsWith i s (withReg s.readReg rd val) s.v (s.pc + len) s.readData

/-- The instruction completes with the mathematical result `res` (43_arith.md R115): `x[rd]` is `res` modulo
2^16 and `V` is 1 iff `res` is below -32768 or above 32767. -/
def WritesSum (i : Instr) (s : State) (rd : Reg) (res : Int) (len : Word) : Prop :=
  EndsWith i s (withReg s.readReg rd (BitVec.ofInt 16 res)) (decide (res < -32768 ∨ res > 32767))
    (s.pc + len) s.readData

/-- The instruction completes, having set `pc` and written nothing else. -/
def GoesTo (i : Instr) (s : State) (pc : Word) : Prop :=
  EndsWith i s s.readReg s.v pc s.readData

/-- A data reading with one byte changed. -/
def withByte (f : Word → Byte) (a : Word) (b : Byte) : Word → Byte := fun x => if x = a then b else f x

/-- A data reading with a word stored at `a`: its low byte at `a`, its high byte at `a + 1`. -/
def withWord (f : Word → Byte) (a v : Word) : Word → Byte :=
  withByte (withByte f a (v.extractLsb' 0 8)) (a + 1) (v.extractLsb' 8 8)

/-- The byte at `a`, zero-extended (20_memory.md R33). -/
def byteAt (s : State) (a : Word) : Word := 0#8 ++ s.readData a

/-- The little-endian word at `a` (R33). -/
def wordAt (s : State) (a : Word) : Word := s.readData (a + 1) ++ s.readData a

/-! ## Words written out bit by bit (30_encoding.md R53, R54) -/

/-- A short halfword from its fields: 0, class, opcode, D, A, B. -/
def shortBits (cls : BitVec 2) (op : BitVec 4) (d a b : BitVec 3) : Word :=
  0#1 ++ cls ++ op ++ d ++ a ++ b

/-- A long word from its fields: 0, 00, X, D high, A high, B high, then 1, class, opcode, D low, A low,
B low. -/
def longBits (cls : BitVec 2) (op x : BitVec 4) (dh ah bh dl al bl : BitVec 3) : BitVec 32 :=
  0#1 ++ 0#2 ++ x ++ dh ++ ah ++ bh ++ 1#1 ++ cls ++ op ++ dl ++ al ++ bl

end Sys2Proof.Safety
end

