-- ==== Sys2Proof/Certificates/Slice0/Obligations.lean ====
section
/-!
DEFINITION. The statements for the provers, each a formalisation of rules of spec/ (OBLIGATIONS.json says which).
-/

open Sys2Proof Sys2Proof.Machine Sys2Proof.Safety

/-- The decoder gives the instruction the spec names for one word of each family, written out in 30_encoding.md
R70 and in the examples of the instruction files. (30_encoding.md section 7, 41_system_nop.md example,
42_move.md example, 43_arith.md example, 44_logic.md example, 45_shift.md example, 46_load.md example,
47_store.md example, 48_branch.md example) -/
def Obligations.SpecWordsDecode : Prop :=
  decode [0x53, 0x02] = .success (.addS 1 2 3) 2 ∧
  decode [0x0F, 0x82, 0x4F, 0x01] = .success (.addL 40 9 63) 4 ∧
  decode [0xC2, 0x00] = .success (.nopS 3 2) 2 ∧
  decode [0x34, 0x9F, 0x48, 0x02] = .success (.moviL 12 0x1234) 4 ∧
  decode [0x53, 0x84, 0x00, 0x02] = .success (.subcL 1 2 3) 4 ∧
  decode [0x57, 0x8A, 0x07, 0x1E] = .success (.xoriL 1 2 0x1FF) 4 ∧
  decode [0x50, 0x9A, 0x02, 0x00] = .success (.lsliL 1 2 17) 4 ∧
  decode [0x51, 0x2C] = .success (.ldwPredecS 1 2 1) 2 ∧
  decode [0x8B, 0x30] = .success (.stbS 2 3 1) 2 ∧
  decode [0xA7, 0xC3, 0x47, 0x02] = .success (.balL 0x1234 63) 4 ∧
  decode [0x0F, 0x82, 0x4F, 0x81] = .failure .noEncodingMatches

/-- R51's five steps: fewer than 2 bytes fail with size 0; a short match of the first little-endian halfword
succeeds with size 2; else fewer than 4 bytes fail with size 0; else a long match of the little-endian word
of the first four bytes succeeds with size 4; else the failure reports size 2. (R51) -/
def Obligations.DecodeFollowsTheFiveSteps : Prop :=
  (∀ bytes : List Byte, bytes.length < 2 → ∃ r, decode bytes = .failure r ∧ r.size = .size0) ∧
  (∀ b0 b1 rest i, decodeShort (b1 ++ b0) = some i → decode (b0 :: b1 :: rest) = .success i 2) ∧
  (∀ b0 b1 rest, decodeShort (b1 ++ b0) = none → rest.length < 2 →
    ∃ r, decode (b0 :: b1 :: rest) = .failure r ∧ r.size = .size0) ∧
  (∀ b0 b1 b2 b3 rest i, decodeShort (b1 ++ b0) = none → decodeLong (b3 ++ b2 ++ b1 ++ b0) = some i →
    decode (b0 :: b1 :: b2 :: b3 :: rest) = .success i 4) ∧
  (∀ b0 b1 b2 b3 rest, decodeShort (b1 ++ b0) = none → decodeLong (b3 ++ b2 ++ b1 ++ b0) = none →
    ∃ r, decode (b0 :: b1 :: b2 :: b3 :: rest) = .failure r ∧ r.size = .size2)

/-- For each of the 38 short rows: the halfword made of 0, the class, the opcode and the fields D, A, B decodes
to that row's instruction, with each register, immediate, shift amount (field + 1) and signed offset read
from the bits of R63. The bit positions and opcode numbers are the spec's own decision D2. (30_encoding.md
section 4, 30_encoding.md section 6, 92_eei_decisions.md D2) -/
def Obligations.ShortFieldsReadAsTheFormatsPlaceThem : Prop :=
  ∀ d a b : BitVec 3,
    decodeShort (shortBits 0 0 d a b) = some (.nopS (narrow d) (a ++ b).toNat) ∧
    decodeShort (shortBits 0 1 d a b) = some (.addS (narrow d) (narrow a) (narrow b)) ∧
    decodeShort (shortBits 0 2 d a b) = some (.subS (narrow d) (narrow a) (narrow b)) ∧
    decodeShort (shortBits 0 3 d a b) = some (.andS (narrow d) (narrow a) (narrow b)) ∧
    decodeShort (shortBits 0 4 d a b) = some (.orS (narrow d) (narrow a) (narrow b)) ∧
    decodeShort (shortBits 0 5 d a b) = some (.xorS (narrow d) (narrow a) (narrow b)) ∧
    decodeShort (shortBits 0 6 d a b) = some (.asrS (narrow d) (narrow a) (narrow b)) ∧
    decodeShort (shortBits 0 7 d a b) = some (.lslS (narrow d) (narrow a) (narrow b)) ∧
    decodeShort (shortBits 0 8 d a b) = some (.lsrS (narrow d) (narrow a) (narrow b)) ∧
    decodeShort (shortBits 0 9 d a 0) = some (.movS (narrow d) (narrow a)) ∧
    decodeShort (shortBits 0 10 d a b) = some (.addiS (narrow d) (narrow a) b.toNat) ∧
    decodeShort (shortBits 0 11 d a b) = some (.subiS (narrow d) (narrow a) b.toNat) ∧
    decodeShort (shortBits 0 12 d a b) = some (.asriS (narrow d) (narrow a) (b.toNat + 1)) ∧
    decodeShort (shortBits 0 13 d a b) = some (.lsliS (narrow d) (narrow a) (b.toNat + 1)) ∧
    decodeShort (shortBits 0 14 d a b) = some (.lsriS (narrow d) (narrow a) (b.toNat + 1)) ∧
    decodeShort (shortBits 0 15 d a b) = some (.moviS (narrow d) (a ++ b).toNat) ∧
    decodeShort (shortBits 1 0 d a b) = some (.ldbS (narrow d) (narrow a) b.toInt) ∧
    decodeShort (shortBits 1 1 d a b) = some (.ldbPostincS (narrow d) (narrow a) b.toInt) ∧
    decodeShort (shortBits 1 2 d a b) = some (.ldbPredecS (narrow d) (narrow a) b.toInt) ∧
    decodeShort (shortBits 1 4 d a b) = some (.ldwS (narrow d) (narrow a) b.toInt) ∧
    decodeShort (shortBits 1 5 d a b) = some (.ldwPostincS (narrow d) (narrow a) b.toInt) ∧
    decodeShort (shortBits 1 6 d a b) = some (.ldwPredecS (narrow d) (narrow a) b.toInt) ∧
    decodeShort (shortBits 1 8 d a b) = some (.stbS (narrow d) b.toInt (narrow a)) ∧
    decodeShort (shortBits 1 9 d a b) = some (.stbPostincS (narrow d) b.toInt (narrow a)) ∧
    decodeShort (shortBits 1 10 d a b) = some (.stbPredecS (narrow d) b.toInt (narrow a)) ∧
    decodeShort (shortBits 1 12 d a b) = some (.stwS (narrow d) b.toInt (narrow a)) ∧
    decodeShort (shortBits 1 13 d a b) = some (.stwPostincS (narrow d) b.toInt (narrow a)) ∧
    decodeShort (shortBits 1 14 d a b) = some (.stwPredecS (narrow d) b.toInt (narrow a)) ∧
    decodeShort (shortBits 2 0 d a b) = some (.braS (d ++ a ++ b).toInt) ∧
    decodeShort (shortBits 2 1 d a b) = some (.balS (d ++ a).toInt (narrow b)) ∧
    decodeShort (shortBits 2 2 d a b) = some (.beqS d.toInt (narrow a) (narrow b)) ∧
    decodeShort (shortBits 2 3 d a b) = some (.bneS d.toInt (narrow a) (narrow b)) ∧
    decodeShort (shortBits 2 4 d a b) = some (.bltsS d.toInt (narrow a) (narrow b)) ∧
    decodeShort (shortBits 2 5 d a b) = some (.bgtsS d.toInt (narrow a) (narrow b)) ∧
    decodeShort (shortBits 2 6 d a b) = some (.bltuS d.toInt (narrow a) (narrow b)) ∧
    decodeShort (shortBits 2 7 d a b) = some (.bgtuS d.toInt (narrow a) (narrow b)) ∧
    decodeShort (shortBits 2 8 d 0 0) = some (.jmpS (narrow d)) ∧
    decodeShort (shortBits 2 9 d 0 b) = some (.jalS (narrow d) (narrow b))

/-- For each of the 43 long rows: the word made of the two frames of R54 decodes to that row's instruction, with
each register, immediate, shift amount and signed offset assembled from the parts of R64. The bit positions
and opcode numbers are the spec's own decision D2. (30_encoding.md section 5, 30_encoding.md section 6,
92_eei_decisions.md D2) -/
def Obligations.LongFieldsReadAsTheFormatsPlaceThem : Prop :=
  ∀ (x : BitVec 4) (y dh ah bh dl al bl : BitVec 3),
    decodeLong (longBits 0 0 0 dh ah bh dl al bl) = some (.nopL (full dh dl) (ah ++ bh ++ al ++ bl).toNat) ∧
    decodeLong (longBits 0 1 0 dh ah bh dl al bl) = some (.addL (full dh dl) (full ah al) (full bh bl)) ∧
    decodeLong (longBits 0 2 0 dh ah bh dl al bl) = some (.subL (full dh dl) (full ah al) (full bh bl)) ∧
    decodeLong (longBits 0 3 0 dh ah bh dl al bl) = some (.andL (full dh dl) (full ah al) (full bh bl)) ∧
    decodeLong (longBits 0 4 0 dh ah bh dl al bl) = some (.orL (full dh dl) (full ah al) (full bh bl)) ∧
    decodeLong (longBits 0 5 0 dh ah bh dl al bl) = some (.xorL (full dh dl) (full ah al) (full bh bl)) ∧
    decodeLong (longBits 0 6 0 dh ah bh dl al bl) = some (.asrL (full dh dl) (full ah al) (full bh bl)) ∧
    decodeLong (longBits 0 7 0 dh ah bh dl al bl) = some (.lslL (full dh dl) (full ah al) (full bh bl)) ∧
    decodeLong (longBits 0 8 0 dh ah bh dl al bl) = some (.lsrL (full dh dl) (full ah al) (full bh bl)) ∧
    decodeLong (longBits 0 9 0 dh ah 0 dl al 0) = some (.movL (full dh dl) (full ah al)) ∧
    decodeLong (longBits 0 10 x dh ah bh dl al bl) = some (.addiL (full dh dl) (full ah al) (x ++ bh ++ bl).toNat) ∧
    decodeLong (longBits 0 11 x dh ah bh dl al bl) = some (.subiL (full dh dl) (full ah al) (x ++ bh ++ bl).toNat) ∧
    decodeLong (longBits 0 12 0 dh ah bh dl al bl) = some (.asriL (full dh dl) (full ah al) ((bh ++ bl).toNat + 1)) ∧
    decodeLong (longBits 0 13 0 dh ah bh dl al bl) = some (.lsliL (full dh dl) (full ah al) ((bh ++ bl).toNat + 1)) ∧
    decodeLong (longBits 0 14 0 dh ah bh dl al bl) = some (.lsriL (full dh dl) (full ah al) ((bh ++ bl).toNat + 1)) ∧
    decodeLong (longBits 0 15 x dh ah bh dl al bl) = some (.moviL (full dh dl) (x ++ ah ++ bh ++ al ++ bl).toNat) ∧
    decodeLong (longBits 0 1 1 dh ah bh dl al bl) = some (.addcL (full dh dl) (full ah al) (full bh bl)) ∧
    decodeLong (longBits 0 2 1 dh ah bh dl al bl) = some (.subcL (full dh dl) (full ah al) (full bh bl)) ∧
    decodeLong (longBits 0 3 (y ++ 1#1) dh ah bh dl al bl) = some (.andiL (full dh dl) (full ah al) (y ++ bh ++ bl).toNat) ∧
    decodeLong (longBits 0 4 (y ++ 1#1) dh ah bh dl al bl) = some (.oriL (full dh dl) (full ah al) (y ++ bh ++ bl).toNat) ∧
    decodeLong (longBits 0 5 (y ++ 1#1) dh ah bh dl al bl) = some (.xoriL (full dh dl) (full ah al) (y ++ bh ++ bl).toNat) ∧
    decodeLong (longBits 1 0 x dh ah bh dl al bl) = some (.ldbL (full dh dl) (full ah al) (x ++ bh ++ bl).toInt) ∧
    decodeLong (longBits 1 1 x dh ah bh dl al bl) = some (.ldbPostincL (full dh dl) (full ah al) (x ++ bh ++ bl).toInt) ∧
    decodeLong (longBits 1 2 x dh ah bh dl al bl) = some (.ldbPredecL (full dh dl) (full ah al) (x ++ bh ++ bl).toInt) ∧
    decodeLong (longBits 1 4 x dh ah bh dl al bl) = some (.ldwL (full dh dl) (full ah al) (x ++ bh ++ bl).toInt) ∧
    decodeLong (longBits 1 5 x dh ah bh dl al bl) = some (.ldwPostincL (full dh dl) (full ah al) (x ++ bh ++ bl).toInt) ∧
    decodeLong (longBits 1 6 x dh ah bh dl al bl) = some (.ldwPredecL (full dh dl) (full ah al) (x ++ bh ++ bl).toInt) ∧
    decodeLong (longBits 1 8 x dh ah bh dl al bl) = some (.stbL (full dh dl) (x ++ bh ++ bl).toInt (full ah al)) ∧
    decodeLong (longBits 1 9 x dh ah bh dl al bl) = some (.stbPostincL (full dh dl) (x ++ bh ++ bl).toInt (full ah al)) ∧
    decodeLong (longBits 1 10 x dh ah bh dl al bl) = some (.stbPredecL (full dh dl) (x ++ bh ++ bl).toInt (full ah al)) ∧
    decodeLong (longBits 1 12 x dh ah bh dl al bl) = some (.stwL (full dh dl) (x ++ bh ++ bl).toInt (full ah al)) ∧
    decodeLong (longBits 1 13 x dh ah bh dl al bl) = some (.stwPostincL (full dh dl) (x ++ bh ++ bl).toInt (full ah al)) ∧
    decodeLong (longBits 1 14 x dh ah bh dl al bl) = some (.stwPredecL (full dh dl) (x ++ bh ++ bl).toInt (full ah al)) ∧
    decodeLong (longBits 2 0 x dh ah bh dl al bl) = some (.braL (x ++ dh ++ ah ++ bh ++ dl ++ al ++ bl).toInt) ∧
    decodeLong (longBits 2 1 x dh ah bh dl al bl) = some (.balL (x ++ dh ++ ah ++ dl ++ al).toInt (full bh bl)) ∧
    decodeLong (longBits 2 2 x dh ah bh dl al bl) = some (.beqL (x ++ dh ++ dl).toInt (full ah al) (full bh bl)) ∧
    decodeLong (longBits 2 3 x dh ah bh dl al bl) = some (.bneL (x ++ dh ++ dl).toInt (full ah al) (full bh bl)) ∧
    decodeLong (longBits 2 4 x dh ah bh dl al bl) = some (.bltsL (x ++ dh ++ dl).toInt (full ah al) (full bh bl)) ∧
    decodeLong (longBits 2 5 x dh ah bh dl al bl) = some (.bgtsL (x ++ dh ++ dl).toInt (full ah al) (full bh bl)) ∧
    decodeLong (longBits 2 6 x dh ah bh dl al bl) = some (.bltuL (x ++ dh ++ dl).toInt (full ah al) (full bh bl)) ∧
    decodeLong (longBits 2 7 x dh ah bh dl al bl) = some (.bgtuL (x ++ dh ++ dl).toInt (full ah al) (full bh bl)) ∧
    decodeLong (longBits 2 8 0 dh 0 0 dl 0 0) = some (.jmpL (full dh dl)) ∧
    decodeLong (longBits 2 9 0 dh 0 bh dl 0 bl) = some (.jalL (full dh dl) (full bh bl))

/-- For every well-formed instruction i and whatever bytes follow: decoding the bytes of i succeeds with i and
with i's size. (30_encoding.md sections 1 to 6) -/
def Obligations.DecodingAnEncodingGivesItBack : Prop :=
  ∀ (i : Instr) (rest : List Byte), i.WellFormed = true →
    decode (encodeBytes i ++ rest) = .success i i.form.bytes

/-- Whenever the decoder succeeds, the instruction is well-formed, the size is that of its form, and the bytes
it was read from are exactly its encoding: each word has one meaning and every decoded instruction one
spelling per form. (30_encoding.md sections 1 to 6) -/
def Obligations.EncodingADecodedInstructionGivesTheBytes : Prop :=
  ∀ (bytes : List Byte) (i : Instr) (n : Nat), decode bytes = .success i n →
    i.WellFormed = true ∧ n = i.form.bytes ∧ bytes.take n = encodeBytes i

/-- For every halfword and every opcode: the decoder reads an instruction with that opcode from it if and only
if a short row of the opcode map with that opcode has match = word and mask; the same for words and long
rows. The table is the spec's own decision D2. (30_encoding.md section 1, 30_encoding.md section 6,
92_eei_decisions.md D2) -/
def Obligations.DecodedInstructionsAreTheMatchingRows : Prop :=
  (∀ (h : Word) (o : Opcode),
    (∃ i, decodeShort h = some i ∧ i.opcode = o) ↔ ∃ row ∈ shortTable, row.opcode = o ∧ h &&& row.mask = row.pattern) ∧
  (∀ (w : BitVec 32) (o : Opcode),
    (∃ i, decodeLong w = some i ∧ i.opcode = o) ↔ ∃ row ∈ longTable, row.opcode = o ∧ w &&& row.mask = row.pattern)

/-- For any two rows of equal length there is a bit in both masks where the match values differ, so at most one
row matches a word. (30_encoding.md section 1) -/
def Obligations.NoTwoRowsOverlap : Prop :=
  (shortTable.Pairwise fun p q => (p.mask &&& q.mask) &&& (p.pattern ^^^ q.pattern) ≠ 0) ∧
  (longTable.Pairwise fun p q => (p.mask &&& q.mask) &&& (p.pattern ^^^ q.pattern) ≠ 0)

/-- For a halfword H with bit 15 clear, the decoder reads no short instruction exactly when one of the six
conditions of R69's short list holds: class 3; class 1 with mode bits 11; class 2 with opcode at or above
0xA; MOV, JMP or JAL with an unused bit set. The list is the spec's own derivation from its table.
(30_encoding.md section 7) -/
def Obligations.UnmatchedShortWords : Prop :=
  ∀ h : Word, h.extractLsb' 15 1 = 0 →
    (decodeShort h = none ↔
      h.extractLsb' 13 2 = 3 ∨
      (h.extractLsb' 13 2 = 1 ∧ h.extractLsb' 9 2 = 3) ∨
      (h.extractLsb' 13 2 = 2 ∧ (h.extractLsb' 9 4).toNat ≥ 0xA) ∨
      (h.extractLsb' 9 7 = 0b0001001 ∧ h.extractLsb' 0 3 ≠ 0) ∨
      (h.extractLsb' 9 7 = 0b0101000 ∧ h.extractLsb' 0 6 ≠ 0) ∨
      (h.extractLsb' 9 7 = 0b0101001 ∧ h.extractLsb' 3 3 ≠ 0))

/-- For a word W with bit 15 set, the decoder reads no long instruction exactly when one of the eleven
conditions of R69's long list holds. The list is the spec's own derivation from its table. (30_encoding.md
section 7) -/
def Obligations.UnmatchedLongWords : Prop :=
  ∀ w : BitVec 32, w.extractLsb' 15 1 = 1 →
    (decodeLong w = none ↔
      w.extractLsb' 31 1 = 1 ∨
      w.extractLsb' 29 2 ≠ 0 ∨
      w.extractLsb' 13 2 = 3 ∨
      (w.extractLsb' 13 2 = 0 ∧ (w.extractLsb' 9 4).toNat ∈ [0x0, 0x6, 0x7, 0x8, 0x9, 0xC, 0xD, 0xE] ∧
        w.extractLsb' 25 4 ≠ 0) ∨
      (w.extractLsb' 13 2 = 0 ∧ (w.extractLsb' 9 4).toNat ∈ [0x1, 0x2] ∧ (w.extractLsb' 25 4).toNat ≥ 2) ∨
      (w.extractLsb' 13 2 = 0 ∧ (w.extractLsb' 9 4).toNat ∈ [0x3, 0x4, 0x5] ∧ w.extractLsb' 25 1 = 0 ∧
        w.extractLsb' 26 3 ≠ 0) ∨
      (w.extractLsb' 13 2 = 0 ∧ w.extractLsb' 9 4 = 0x9 ∧ w.extractLsb' 16 3 ++ w.extractLsb' 0 3 ≠ 0#6) ∨
      (w.extractLsb' 13 2 = 1 ∧ w.extractLsb' 9 2 = 3) ∨
      (w.extractLsb' 13 2 = 2 ∧ (w.extractLsb' 9 4).toNat ≥ 0xA) ∨
      (w.extractLsb' 13 2 = 2 ∧ w.extractLsb' 9 4 = 0x8 ∧
        (w.extractLsb' 25 4 ≠ 0 ∨ w.extractLsb' 16 6 ++ w.extractLsb' 0 6 ≠ 0#12)) ∨
      (w.extractLsb' 13 2 = 2 ∧ w.extractLsb' 9 4 = 0x9 ∧
        (w.extractLsb' 25 4 ≠ 0 ∨ w.extractLsb' 19 3 ++ w.extractLsb' 3 3 ≠ 0#6)))

/-- A halfword that spells a short instruction has bit 15 clear; a word that spells a long one has bit 15 set
and bit 31 clear; so no bytes match both a short and a long form. The frame is the spec's own decision D2.
(30_encoding.md section 1, 92_eei_decisions.md D2) -/
def Obligations.Bit15TellsTheLength : Prop :=
  (∀ (h : Word) (i : Instr), decodeShort h = some i → h.getLsbD 15 = false ∧ i.form = .short) ∧
  (∀ (w : BitVec 32) (i : Instr), decodeLong w = some i →
    w.getLsbD 15 = true ∧ w.getLsbD 31 = false ∧ i.form = .long ∧ decodeShort (w.extractLsb' 0 16) = none)

/-- On a core that is not halted, when the fetched bytes decode to an instruction i, the step is exec of i at
that state: exec includes the commit of the pc and the status, and step adds nothing around it (log entry
15). (40_execution_cycle.md section 1) -/
def Obligations.StepRunsTheDecodedInstruction : Prop :=
  ∀ (s : State) (i : Instr) (n : Nat), s.halted = false → decode s.fetch = .success i n → step s = exec i s

/-- On a core that is not halted, when a well-formed instruction i fits below the top of code memory at byte
address 2*pc and each byte there is the byte of i's encoding, the step is exec of i at that state.
(40_execution_cycle.md section 1, 30_encoding.md section 1) -/
def Obligations.StepRunsTheInstructionInCodeMemory : Prop :=
  ∀ (s : State) (i : Instr), s.halted = false → i.WellFormed = true →
    2 * s.pc.toNat + i.form.bytes ≤ 131072 →
    (∀ k (hk : k < (encodeBytes i).length), s.codeMem.read (2 * s.pc.toNat + k) = (encodeBytes i)[k]) →
    step s = exec i s

/-- On a core that is not halted, when the host loads the encoding of a well-formed instruction i as a code
section at byte address 2*pc, the next step is exec of i. (20_memory.md section 5, 40_execution_cycle.md
section 1, 20_memory.md section 7) -/
def Obligations.ALoadedInstructionRunsNext : Prop :=
  ∀ (s t : State) (i : Instr), s.halted = false → i.WellFormed = true →
    s.loadCodeSection (encodeBytes i) (2 * s.pc.toNat) = some t → step t = exec i t

/-- For pc up to 0xFFFE the fetched bytes are the four code bytes from 2*pc on; for pc = 0xFFFF they are the two
at 0x1FFFE and 0x1FFFF. How many bytes are available at the top is the spec's own decision D5.
(40_execution_cycle.md section 1, 92_eei_decisions.md D5) -/
def Obligations.FetchStopsAtTheTopOfCodeMemory : Prop :=
  ∀ s : State,
    (s.pc ≠ 0xFFFF → s.fetch = [s.codeMem.read (2 * s.pc.toNat), s.codeMem.read (2 * s.pc.toNat + 1),
      s.codeMem.read (2 * s.pc.toNat + 2), s.codeMem.read (2 * s.pc.toNat + 3)]) ∧
    (s.pc = 0xFFFF → s.fetch = [s.codeMem.read 0x1FFFE, s.codeMem.read 0x1FFFF])

/-- At pc = 0xFFFF only two bytes are available, so a first halfword with bit 15 set makes the step return
InvalidInstruction with reported size 0 and change nothing else (U14; the spec's own decision D5).
(40_execution_cycle.md section 1, 93_implementation_defined.md U14) -/
def Obligations.ALongHalfwordAtTheTopIsInvalid : Prop :=
  ∀ s : State, s.halted = false → s.pc = 0xFFFF → (s.codeMem.read 0x1FFFF).getLsbD 7 = true →
    step s = .next { s with status := .invalidInstruction, failSize := some .size0 }

/-- On a core that is not halted, when the fetched bytes do not decode, the step returns InvalidInstruction with
the decoder's reported size; no register, memory, flag, stream or pc changes; and stepping again gives the
same. The status and the size are outputs, held in State (log entries 6, 7). (40_execution_cycle.md section
1, 60_exceptions.md section 1) -/
def Obligations.ADecodeFailureChangesNothing : Prop :=
  ∀ (s : State) (r : DecodeFailure), s.halted = false → decode s.fetch = .failure r →
    ∃ t, step s = .next t ∧ t.status = .invalidInstruction ∧ t.failSize = some r.size ∧
      t = { s with status := t.status, failSize := t.failSize } ∧ step t = .next t

/-- For every instruction and every state exec answers a next state. Its status is Breakpoint for NOP command 0,
Quit for NOP command 2 and Ok for everything else; no arithmetic, memory or branch instruction can fail.
That the three same-register cases the spec leaves open run too is the model's choice (log entries 8, 9,
10). (40_execution_cycle.md section 2, 41_system_nop.md, 92_eei_decisions.md D11, D12, D13) -/
def Obligations.EveryInstructionCompletes : Prop :=
  ∀ (i : Instr) (s : State), ∃ t, exec i s = .next t ∧ t.status = returnedStatus i ∧ t.failSize = none

/-- Whatever the status of the last step, a core that has not been halted by the abort policy answers a next
state, which again is not halted. That the three same-register cases the spec leaves open, and refuses by
default, run too is the model's choice (log entries 8, 9, 10); the core not latching is the spec's own
decision D22. (40_execution_cycle.md section 4, 92_eei_decisions.md D11, D12, D13, D22) -/
def Obligations.TheCoreIsNeverLatched : Prop :=
  ∀ s : State, s.halted = false → ∃ t, step s = .next t ∧ t.halted = false

/-- Every decoded instruction has its rule, so no byte sequence produces Trap. (40_execution_cycle.md section 3) -/
def Obligations.TrapIsUnreachable : Prop :=
  ∀ s t : State, step s = .next t → t.status ≠ .trap

/-- Under TRAP_POLICY trap an opcode without a rule returns Trap and leaves pc and state unchanged; under abort
the core halts, and a halted core accepts no step. Halting as the meaning of abort is the spec's own
decision D16; no table row reaches either (log entry 11). (40_execution_cycle.md section 3,
92_eei_decisions.md D16) -/
def Obligations.AnAbortedCoreAcceptsNoStep : Prop :=
  (∀ s : State, ∃ t, s.unhandledOpcodeUnder .trap = .next t ∧ t.status = .trap ∧ t.failSize = none ∧
    t = { s with status := t.status, failSize := t.failSize }) ∧
  (∀ s t : State, s.unhandledOpcodeUnder .abort = .next t → t.pc = s.pc ∧ step t = .fault .halted)

/-- At reset both memories are in canonical form and no size is reported; the list form and the output fields
are the model's choice (log entries 4, 6). (70_reset_and_hazards.md section 1) -/
def Obligations.ResetSatisfiesTheInvariant : Prop :=
  Inv State.reset

/-- From every state that satisfies the invariant, a step that answers a next state gives one that satisfies it:
the memories stay in canonical form within their address spaces, and a size is reported exactly beside the
status InvalidInstruction. The list form and the two output fields are the model's choice (log entries 4,
6). (20_memory.md section 3, 60_exceptions.md section 1) -/
def Obligations.StepKeepsTheInvariant : Prop :=
  ∀ s t : State, Inv s → step s = .next t → Inv t

/-- Stores write data memory only: after any step code memory is what it was, so a program cannot modify code.
(20_memory.md section 7, 10_state.md section 6) -/
def Obligations.NoStepChangesCodeMemory : Prop :=
  ∀ s t : State, step s = .next t → t.codeMem = s.codeMem

/-- After any step each stream is what it was with at most one byte appended, and not both streams grow in one
step. (10_state.md section 7, 41_system_nop.md) -/
def Obligations.StreamsAreAppendOnly : Prop :=
  ∀ s t : State, step s = .next t →
    ∃ o e : List Byte, t.stdout = s.stdout ++ o ∧ t.stderr = s.stderr ++ e ∧ o.length + e.length ≤ 1

/-- After a step whose status is Quit the exit code is valid; after any other step the exit-code register and
its validity are what they were. (10_state.md section 4) -/
def Obligations.OnlyQuitWritesTheExitCode : Prop :=
  ∀ s t : State, step s = .next t →
    (t.status = .quit → t.getExitCode = some t.exitCode) ∧
    (t.status ≠ .quit → t.exitCode = s.exitCode ∧ t.exitValid = s.exitValid)

/-- Every instruction other than ADD, ADDI, ADDC, SUB, SUBI, SUBC leaves V as it was: moves, logic, shifts,
loads, stores, branches, jumps and the NOP. (10_state.md section 3) -/
def Obligations.OnlyAddAndSubtractWriteTheFlag : Prop :=
  ∀ (i : Instr) (s t : State), exec i s = .next t → writesV i = false → t.v = s.v

/-- For every instruction that completes: every register outside mayWrite (the destination; the pointer of a
post-increment or pre-decrement access; the link of BAL and JAL; none for NOP, plain stores, BRA, JMP and
the conditional branches) holds what it held. (42_move.md, 43_arith.md, 44_logic.md, 45_shift.md,
46_load.md, 47_store.md, 48_branch.md, 41_system_nop.md) -/
def Obligations.RegistersChangeOnlyWhereTheRuleSays : Prop :=
  ∀ (i : Instr) (s t : State), exec i s = .next t → ∀ r : Reg, r ∉ mayWrite i → t.readReg r = s.readReg r

/-- For every instruction that completes and every address outside storedAt (one byte at the effective address
for STB forms, two for STW forms, computed from the state before; none for every other instruction), the
data byte read is what it was. (47_store.md, 20_memory.md section 3) -/
def Obligations.DataBytesChangeOnlyWhereAStoreGoes : Prop :=
  ∀ (i : Instr) (s t : State), exec i s = .next t → ∀ a : Word, a ∉ storedAt i s → t.readData a = s.readData a

/-- For every instruction that completes: code memory and the halt bit are as before, and unless it is a NOP the
exit code, its validity and both streams are as before. (41_system_nop.md, 40_execution_cycle.md section 2) -/
def Obligations.OtherStateChangesOnlyByTheNop : Prop :=
  ∀ (i : Instr) (s t : State), exec i s = .next t →
    t.codeMem = s.codeMem ∧ t.halted = s.halted ∧ (i.opcode ≠ .nop → SameElsewhere s t)

/-- The register fields of a short form are of the narrow class, so registers 8 to 63 hold what they held.
(30_encoding.md section 2, 10_state.md section 1) -/
def Obligations.ShortFormsReachRegisters0To7 : Prop :=
  ∀ (i : Instr) (s t : State), i.WellFormed = true → i.form = .short → exec i s = .next t →
    ∀ r : Reg, 8 ≤ r.val → t.readReg r = s.readReg r

/-- For both forms: the NOP completes and pc goes to the next instruction; command 0 returns Breakpoint and
changes nothing else; command 2 captures the register as exit code and returns Quit; command 3 appends the
register's low byte to stdout, command 4 to stderr; command 1 and every command from 5 on do nothing.
(41_system_nop.md) -/
def Obligations.NopCommandEffects : Prop :=
  ∀ (rd : Reg) (cmd : Nat) (s : State), ∀ p ∈ [(Instr.nopS rd cmd, (1 : Word)), (.nopL rd cmd, 2)],
    let at0 : State := { s with pc := s.pc + p.2, failSize := none }
    (cmd = 0 → exec p.1 s = .next { at0 with status := .breakpoint }) ∧
    (cmd = 2 → exec p.1 s = .next { at0 with status := .quit, exitCode := s.readReg rd, exitValid := true }) ∧
    (cmd = 3 → exec p.1 s = .next { at0 with status := .ok, stdout := s.stdout ++ [(s.readReg rd).extractLsb' 0 8] }) ∧
    (cmd = 4 → exec p.1 s = .next { at0 with status := .ok, stderr := s.stderr ++ [(s.readReg rd).extractLsb' 0 8] }) ∧
    (cmd = 1 ∨ 5 ≤ cmd → exec p.1 s = .next { at0 with status := .ok })

/-- MOV writes x[ra] to x[rd] and MOVI the immediate masked to 16 bits, in both forms; V and everything else is
unchanged. (42_move.md) -/
def Obligations.MoveResults : Prop :=
  ∀ (rd ra : Reg) (imm : Nat) (s : State),
    Writes (.movS rd ra) s rd (s.readReg ra) 1 ∧ Writes (.movL rd ra) s rd (s.readReg ra) 2 ∧
    Writes (.moviS rd imm) s rd (BitVec.ofNat 16 (imm % 65536)) 1 ∧
    Writes (.moviL rd imm) s rd (BitVec.ofNat 16 (imm % 65536)) 2

/-- With A and B the sources read as signed (an immediate as the non-negative integer it is) and c the flag
before the instruction (ADDC, SUBC) or 0: x[rd] is A + B + c or A - B - c modulo 2^16, V is 1 exactly when
that result is below -32768 or above 32767, and nothing else changes but pc. (R115) -/
def Obligations.AddAndSubtractResults : Prop :=
  ∀ (rd ra rb : Reg) (imm : Nat) (s : State),
    let a := (s.readReg ra).toInt
    let b := (s.readReg rb).toInt
    let c : Int := if s.v then 1 else 0
    WritesSum (.addS rd ra rb) s rd (a + b) 1 ∧ WritesSum (.addL rd ra rb) s rd (a + b) 2 ∧
    WritesSum (.addiS rd ra imm) s rd (a + imm) 1 ∧ WritesSum (.addiL rd ra imm) s rd (a + imm) 2 ∧
    WritesSum (.addcL rd ra rb) s rd (a + b + c) 2 ∧
    WritesSum (.subS rd ra rb) s rd (a - b) 1 ∧ WritesSum (.subL rd ra rb) s rd (a - b) 2 ∧
    WritesSum (.subiS rd ra imm) s rd (a - imm) 1 ∧ WritesSum (.subiL rd ra imm) s rd (a - imm) 2 ∧
    WritesSum (.subcL rd ra rb) s rd (a - b - c) 2

/-- Whatever the flag: the value written is the 16-bit modular sum or difference, so it does not depend on
reading the operands as signed or unsigned. Both forms of ADD, ADDI, SUB and SUBI; ADDC and SUBC have the
long form only. (43_arith.md) -/
def Obligations.TheRegisterResultIsModular : Prop :=
  ∀ (rd ra rb : Reg) (imm : Nat) (s t : State),
    let c : Word := if s.v then 1 else 0
    (exec (.addS rd ra rb) s = .next t → t.readReg rd = s.readReg ra + s.readReg rb) ∧
    (exec (.addL rd ra rb) s = .next t → t.readReg rd = s.readReg ra + s.readReg rb) ∧
    (exec (.addiS rd ra imm) s = .next t → t.readReg rd = s.readReg ra + BitVec.ofNat 16 imm) ∧
    (exec (.addiL rd ra imm) s = .next t → t.readReg rd = s.readReg ra + BitVec.ofNat 16 imm) ∧
    (exec (.addcL rd ra rb) s = .next t → t.readReg rd = s.readReg ra + s.readReg rb + c) ∧
    (exec (.subS rd ra rb) s = .next t → t.readReg rd = s.readReg ra - s.readReg rb) ∧
    (exec (.subL rd ra rb) s = .next t → t.readReg rd = s.readReg ra - s.readReg rb) ∧
    (exec (.subiS rd ra imm) s = .next t → t.readReg rd = s.readReg ra - BitVec.ofNat 16 imm) ∧
    (exec (.subiL rd ra imm) s = .next t → t.readReg rd = s.readReg ra - BitVec.ofNat 16 imm) ∧
    (exec (.subcL rd ra rb) s = .next t → t.readReg rd = s.readReg ra - s.readReg rb - c)

/-- x[rd] is the bitwise and, or, exclusive-or of x[ra] with x[rb] or with the zero-extended immediate; V and
everything else is unchanged. (44_logic.md) -/
def Obligations.LogicResults : Prop :=
  ∀ (rd ra rb : Reg) (imm : Nat) (s : State),
    let x := s.readReg ra
    let y := s.readReg rb
    Writes (.andS rd ra rb) s rd (x &&& y) 1 ∧
    Writes (.andL rd ra rb) s rd (x &&& y) 2 ∧
    Writes (.andiL rd ra imm) s rd (x &&& BitVec.ofNat 16 imm) 2 ∧
    Writes (.orS rd ra rb) s rd (x ||| y) 1 ∧
    Writes (.orL rd ra rb) s rd (x ||| y) 2 ∧
    Writes (.oriL rd ra imm) s rd (x ||| BitVec.ofNat 16 imm) 2 ∧
    Writes (.xorS rd ra rb) s rd (x ^^^ y) 1 ∧
    Writes (.xorL rd ra rb) s rd (x ^^^ y) 2 ∧
    Writes (.xoriL rd ra imm) s rd (x ^^^ BitVec.ofNat 16 imm) 2

/-- The amount is the register or the decoded operand modulo 16 (its low 4 bits). LSL writes x * 2^n modulo
2^16, LSR the floor of x / 2^n with x unsigned, ASR the floor of x / 2^n with x signed, modulo 2^16 (Lean's
integer division rounds toward minus infinity for a positive divisor). Nothing else changes but pc. (R135) -/
def Obligations.ShiftResults : Prop :=
  ∀ (rd ra rb : Reg) (sh : Nat) (s : State),
    let x := s.readReg ra
    let n := (s.readReg rb).toNat % 16
    let m := sh % 16
    Writes (.lslS rd ra rb) s rd (BitVec.ofNat 16 (x.toNat * 2 ^ n)) 1 ∧
    Writes (.lslL rd ra rb) s rd (BitVec.ofNat 16 (x.toNat * 2 ^ n)) 2 ∧
    Writes (.lsliS rd ra sh) s rd (BitVec.ofNat 16 (x.toNat * 2 ^ m)) 1 ∧
    Writes (.lsliL rd ra sh) s rd (BitVec.ofNat 16 (x.toNat * 2 ^ m)) 2 ∧
    Writes (.lsrS rd ra rb) s rd (BitVec.ofNat 16 (x.toNat / 2 ^ n)) 1 ∧
    Writes (.lsrL rd ra rb) s rd (BitVec.ofNat 16 (x.toNat / 2 ^ n)) 2 ∧
    Writes (.lsriS rd ra sh) s rd (BitVec.ofNat 16 (x.toNat / 2 ^ m)) 1 ∧
    Writes (.lsriL rd ra sh) s rd (BitVec.ofNat 16 (x.toNat / 2 ^ m)) 2 ∧
    Writes (.asrS rd ra rb) s rd (BitVec.ofInt 16 (x.toInt / 2 ^ n)) 1 ∧
    Writes (.asrL rd ra rb) s rd (BitVec.ofInt 16 (x.toInt / 2 ^ n)) 2 ∧
    Writes (.asriS rd ra sh) s rd (BitVec.ofInt 16 (x.toInt / 2 ^ m)) 1 ∧
    Writes (.asriL rd ra sh) s rd (BitVec.ofInt 16 (x.toInt / 2 ^ m)) 2

/-- x[rd] is the zero-extended byte at EA, or the word of the bytes at EA and EA + 1, EA being x[ra] + off
modulo 2^16; rd = ra included. The pointer, V and memory are unchanged. Zero-extension (D14) and the wrap
(D6) are the spec's own decisions. (46_load.md, 20_memory.md section 3, 92_eei_decisions.md D6, D14) -/
def Obligations.PlainLoadResults : Prop :=
  ∀ (rd ra : Reg) (off : Int) (s : State),
    let ea := s.readReg ra + BitVec.ofInt 16 off
    Writes (.ldbS rd ra off) s rd (byteAt s ea) 1 ∧ Writes (.ldbL rd ra off) s rd (byteAt s ea) 2 ∧
    Writes (.ldwS rd ra off) s rd (wordAt s ea) 1 ∧ Writes (.ldwL rd ra off) s rd (wordAt s ea) 2

/-- The pointer becomes x[ra] - 1 (byte) or - 2 (word); EA is that pointer plus the offset; x[rd] is the byte or
word at EA, written after the pointer. V and memory are unchanged. (46_load.md, 20_memory.md section 3,
92_eei_decisions.md D6, D14) -/
def Obligations.PredecrementLoadResults : Prop :=
  ∀ (rd ra : Reg) (off : Int) (s : State),
    let p1 := s.readReg ra - 1
    let p2 := s.readReg ra - 2
    let after1 := withReg (withReg s.readReg ra p1) rd (byteAt s (p1 + BitVec.ofInt 16 off))
    let after2 := withReg (withReg s.readReg ra p2) rd (wordAt s (p2 + BitVec.ofInt 16 off))
    EndsWith (.ldbPredecS rd ra off) s after1 s.v (s.pc + 1) s.readData ∧
    EndsWith (.ldbPredecL rd ra off) s after1 s.v (s.pc + 2) s.readData ∧
    EndsWith (.ldwPredecS rd ra off) s after2 s.v (s.pc + 1) s.readData ∧
    EndsWith (.ldwPredecL rd ra off) s after2 s.v (s.pc + 2) s.readData

/-- For rd other than ra: EA is x[ra] plus the offset; x[rd] is the byte or word there; the pointer becomes
x[ra] + 1 or + 2, whatever the offset. V and memory are unchanged. The case rd = ra is the next statement.
(46_load.md, 20_memory.md section 3, 92_eei_decisions.md D6, D14) -/
def Obligations.PostincrementLoadResults : Prop :=
  ∀ (rd ra : Reg) (off : Int) (s : State), rd ≠ ra →
    let ea := s.readReg ra + BitVec.ofInt 16 off
    let after1 := withReg (withReg s.readReg rd (byteAt s ea)) ra (s.readReg ra + 1)
    let after2 := withReg (withReg s.readReg rd (wordAt s ea)) ra (s.readReg ra + 2)
    EndsWith (.ldbPostincS rd ra off) s after1 s.v (s.pc + 1) s.readData ∧
    EndsWith (.ldbPostincL rd ra off) s after1 s.v (s.pc + 2) s.readData ∧
    EndsWith (.ldwPostincS rd ra off) s after2 s.v (s.pc + 1) s.readData ∧
    EndsWith (.ldwPostincL rd ra off) s after2 s.v (s.pc + 2) s.readData

/-- With rd = ra the spec does not settle the result. The model runs the instruction: either every such load
leaves the pointer plus the size, or every one leaves the loaded value plus the size, unknown which
(POSTINC_LOAD_SAME_REG, model's choice, log entry 8); everything else is as for rd other than ra.
(46_load.md table of same-register cases, 92_eei_decisions.md D11) -/
def Obligations.PostincrementLoadIntoItsPointer : Prop :=
  let case (r : Reg) (off : Int) (s : State) (one two : Word) : Prop :=
    EndsWith (.ldbPostincS r r off) s (withReg s.readReg r one) s.v (s.pc + 1) s.readData ∧
    EndsWith (.ldbPostincL r r off) s (withReg s.readReg r one) s.v (s.pc + 2) s.readData ∧
    EndsWith (.ldwPostincS r r off) s (withReg s.readReg r two) s.v (s.pc + 1) s.readData ∧
    EndsWith (.ldwPostincL r r off) s (withReg s.readReg r two) s.v (s.pc + 2) s.readData
  (∀ r off s, case r off s (s.readReg r + 1) (s.readReg r + 2)) ∨
  (∀ r off s, case r off s (byteAt s (s.readReg r + BitVec.ofInt 16 off) + 1)
    (wordAt s (s.readReg r + BitVec.ofInt 16 off) + 2))

/-- The byte at EA becomes x[ra][7:0]; for a word also the byte at EA + 1 becomes x[ra][15:8], EA being x[rd] +
off modulo 2^16; ra = rd included. No register, no other byte and not V changes. The wrap is the spec's own
decision D6. (47_store.md, 20_memory.md section 3, 92_eei_decisions.md D6) -/
def Obligations.PlainStoreResults : Prop :=
  ∀ (rd ra : Reg) (off : Int) (s : State),
    let ea := s.readReg rd + BitVec.ofInt 16 off
    let data1 := withByte s.readData ea ((s.readReg ra).extractLsb' 0 8)
    let data2 := withWord s.readData ea (s.readReg ra)
    EndsWith (.stbS rd off ra) s s.readReg s.v (s.pc + 1) data1 ∧
    EndsWith (.stbL rd off ra) s s.readReg s.v (s.pc + 2) data1 ∧
    EndsWith (.stwS rd off ra) s s.readReg s.v (s.pc + 1) data2 ∧
    EndsWith (.stwL rd off ra) s s.readReg s.v (s.pc + 2) data2

/-- EA is x[rd] plus the offset; the value is x[ra] as it was, also when ra = rd; the pointer becomes x[rd] + 1
or + 2. Nothing else changes but pc. (47_store.md, 20_memory.md section 3, 92_eei_decisions.md D6) -/
def Obligations.PostincrementStoreResults : Prop :=
  ∀ (rd ra : Reg) (off : Int) (s : State),
    let ea := s.readReg rd + BitVec.ofInt 16 off
    let data1 := withByte s.readData ea ((s.readReg ra).extractLsb' 0 8)
    let data2 := withWord s.readData ea (s.readReg ra)
    let after1 := withReg s.readReg rd (s.readReg rd + 1)
    let after2 := withReg s.readReg rd (s.readReg rd + 2)
    EndsWith (.stbPostincS rd off ra) s after1 s.v (s.pc + 1) data1 ∧
    EndsWith (.stbPostincL rd off ra) s after1 s.v (s.pc + 2) data1 ∧
    EndsWith (.stwPostincS rd off ra) s after2 s.v (s.pc + 1) data2 ∧
    EndsWith (.stwPostincL rd off ra) s after2 s.v (s.pc + 2) data2

/-- For ra other than rd: the pointer becomes x[rd] - 1 or - 2; EA is that pointer plus the offset; x[ra] is
stored there. Nothing else changes but pc. The case ra = rd is the next statement. (47_store.md,
20_memory.md section 3, 92_eei_decisions.md D6) -/
def Obligations.PredecrementStoreResults : Prop :=
  ∀ (rd ra : Reg) (off : Int) (s : State), ra ≠ rd →
    let p1 := s.readReg rd - 1
    let p2 := s.readReg rd - 2
    let after1 := withReg s.readReg rd p1
    let after2 := withReg s.readReg rd p2
    let data1 := withByte s.readData (p1 + BitVec.ofInt 16 off) ((s.readReg ra).extractLsb' 0 8)
    let data2 := withWord s.readData (p2 + BitVec.ofInt 16 off) (s.readReg ra)
    EndsWith (.stbPredecS rd off ra) s after1 s.v (s.pc + 1) data1 ∧
    EndsWith (.stbPredecL rd off ra) s after1 s.v (s.pc + 2) data1 ∧
    EndsWith (.stwPredecS rd off ra) s after2 s.v (s.pc + 1) data2 ∧
    EndsWith (.stwPredecL rd off ra) s after2 s.v (s.pc + 2) data2

/-- With ra = rd the spec does not settle the value. The model runs the instruction: the pointer is decremented,
and either every such store stores the decremented pointer or every one stores the old pointer, unknown
which (PREDEC_STORE_SAME_REG, model's choice, log entry 9). (47_store.md table of same-register cases,
92_eei_decisions.md D12) -/
def Obligations.PredecrementStoreOfItsPointer : Prop :=
  let case (rd : Reg) (off : Int) (s : State) (one two : Word) : Prop :=
    let p1 := s.readReg rd - 1
    let p2 := s.readReg rd - 2
    let after1 := withReg s.readReg rd p1
    let after2 := withReg s.readReg rd p2
    let data1 := withByte s.readData (p1 + BitVec.ofInt 16 off) (one.extractLsb' 0 8)
    let data2 := withWord s.readData (p2 + BitVec.ofInt 16 off) two
    EndsWith (.stbPredecS rd off rd) s after1 s.v (s.pc + 1) data1 ∧
    EndsWith (.stbPredecL rd off rd) s after1 s.v (s.pc + 2) data1 ∧
    EndsWith (.stwPredecS rd off rd) s after2 s.v (s.pc + 1) data2 ∧
    EndsWith (.stwPredecL rd off rd) s after2 s.v (s.pc + 2) data2
  (∀ r off s, case r off s (s.readReg r - 1) (s.readReg r - 2)) ∨
  (∀ r off s, case r off s (s.readReg r) (s.readReg r))

/-- After STW of x[ra] at pointer rd, short or long form, in every state: LDW through rd with the same offset
gives x[ra], LDB at that offset gives its low byte and LDB one byte on its high byte, each load in its short
and its long form, odd and wrapping addresses included. The wrap (D6) and the zero-extension (D14) are the
spec's own decisions. (20_memory.md section 1, 20_memory.md section 3, 46_load.md, 47_store.md,
92_eei_decisions.md D6, D14) -/
def Obligations.WordStoreThenLoadRoundTrips : Prop :=
  ∀ (rd ra rc : Reg) (off : Int) (s t : State), ∀ stw ∈ [Instr.stwS rd off ra, .stwL rd off ra],
    exec stw s = .next t →
    (∀ ldw ∈ [Instr.ldwS rc rd off, .ldwL rc rd off],
      ∃ u, exec ldw t = .next u ∧ u.readReg rc = s.readReg ra) ∧
    (∀ ldb ∈ [Instr.ldbS rc rd off, .ldbL rc rd off],
      ∃ u, exec ldb t = .next u ∧ u.readReg rc = 0#8 ++ (s.readReg ra).extractLsb' 0 8) ∧
    (∀ ldb ∈ [Instr.ldbS rc rd (off + 1), .ldbL rc rd (off + 1)],
      ∃ u, exec ldb t = .next u ∧ u.readReg rc = 0#8 ++ (s.readReg ra).extractLsb' 8 8)

/-- A byte write puts v[7:0] at the address and leaves every other byte untouched; a word write puts v[7:0] at
the address and v[15:8] at the next, modulo 2^16, and leaves every other byte untouched. (R34) -/
def Obligations.MemWriteStoresItsBytes : Prop :=
  ∀ (s : State) (a v : Word),
    (∀ x, (s.memWrite a .byte v).readData x = withByte s.readData a (v.extractLsb' 0 8) x) ∧
    (∀ x, (s.memWrite a .word v).readData x = withWord s.readData a v x)

/-- The relation compares x[ra] with x[rb]: equal, not equal, less and greater signed, less and greater
unsigned. The target is relative to the branch's own address, in words, modulo 2^16. No register, flag or
memory changes. The operand roles are the spec's own decision D15, the wrap D23. (48_branch.md,
92_eei_decisions.md D15, D23) -/
def Obligations.ConditionalBranchResults : Prop :=
  ∀ (ra rb : Reg) (off : Int) (s : State),
    let x := s.readReg ra
    let y := s.readReg rb
    let target := s.pc + BitVec.ofInt 16 off
    GoesTo (.beqS off ra rb) s (if x = y then target else s.pc + 1) ∧
    GoesTo (.beqL off ra rb) s (if x = y then target else s.pc + 2) ∧
    GoesTo (.bneS off ra rb) s (if x ≠ y then target else s.pc + 1) ∧
    GoesTo (.bneL off ra rb) s (if x ≠ y then target else s.pc + 2) ∧
    GoesTo (.bltsS off ra rb) s (if x.toInt < y.toInt then target else s.pc + 1) ∧
    GoesTo (.bltsL off ra rb) s (if x.toInt < y.toInt then target else s.pc + 2) ∧
    GoesTo (.bgtsS off ra rb) s (if x.toInt > y.toInt then target else s.pc + 1) ∧
    GoesTo (.bgtsL off ra rb) s (if x.toInt > y.toInt then target else s.pc + 2) ∧
    GoesTo (.bltuS off ra rb) s (if x.toNat < y.toNat then target else s.pc + 1) ∧
    GoesTo (.bltuL off ra rb) s (if x.toNat < y.toNat then target else s.pc + 2) ∧
    GoesTo (.bgtuS off ra rb) s (if x.toNat > y.toNat then target else s.pc + 1) ∧
    GoesTo (.bgtuL off ra rb) s (if x.toNat > y.toNat then target else s.pc + 2)

/-- BRA sets pc to pc + off modulo 2^16 and JMP to x[rd], all 16 bits used; no register, flag or memory changes.
(48_branch.md, 92_eei_decisions.md D23) -/
def Obligations.BranchAndJumpResults : Prop :=
  ∀ (rd : Reg) (off : Int) (s : State),
    GoesTo (.braS off) s (s.pc + BitVec.ofInt 16 off) ∧ GoesTo (.braL off) s (s.pc + BitVec.ofInt 16 off) ∧
    GoesTo (.jmpS rd) s (s.readReg rd) ∧ GoesTo (.jmpL rd) s (s.readReg rd)

/-- The link register becomes pc + 1 (short) or pc + 2 (long). BAL goes to pc + off; JAL with rd other than rb
goes to x[rd]. Nothing else changes. JAL with rd = rb is the next statement. (48_branch.md,
92_eei_decisions.md D23) -/
def Obligations.CallResults : Prop :=
  ∀ (rd rb : Reg) (off : Int) (s : State),
    let link1 := withReg s.readReg rb (s.pc + 1)
    let link2 := withReg s.readReg rb (s.pc + 2)
    let target := s.pc + BitVec.ofInt 16 off
    EndsWith (.balS off rb) s link1 s.v target s.readData ∧ EndsWith (.balL off rb) s link2 s.v target s.readData ∧
    (rd ≠ rb → EndsWith (.jalS rd rb) s link1 s.v (s.readReg rd) s.readData ∧
      EndsWith (.jalL rd rb) s link2 s.v (s.readReg rd) s.readData)

/-- With rd = rb the spec does not settle the target. The model runs the instruction: the link becomes the next
instruction's address, and either every such JAL goes there or every one goes to the old register value,
unknown which (JAL_SAME_REG, model's choice, log entry 10). (48_branch.md JAL corner cases,
92_eei_decisions.md D13) -/
def Obligations.JalThroughItsLink : Prop :=
  (∀ (r : Reg) (s : State),
    EndsWith (.jalS r r) s (withReg s.readReg r (s.pc + 1)) s.v (s.pc + 1) s.readData ∧
    EndsWith (.jalL r r) s (withReg s.readReg r (s.pc + 2)) s.v (s.pc + 2) s.readData) ∨
  (∀ (r : Reg) (s : State),
    EndsWith (.jalS r r) s (withReg s.readReg r (s.pc + 1)) s.v (s.readReg r) s.readData ∧
    EndsWith (.jalL r r) s (withReg s.readReg r (s.pc + 2)) s.v (s.readReg r) s.readData)

/-- In both lengths and for all six relations: the word whose 3-bit or 10-bit offset field is all ones decodes
to a branch that, when its relation holds, goes to pc - 1 and changes nothing else. (48_branch.md,
30_encoding.md section 2) -/
def Obligations.AnAllOnesOffsetBranchesBackByOne : Prop :=
  ∀ (ah bh al bl : BitVec 3) (s : State),
    let back (d : Option Instr) (taken : Prop) : Prop := ∃ i, d = some i ∧ (taken → GoesTo i s (s.pc - 1))
    let x := s.readReg (narrow al)
    let y := s.readReg (narrow bl)
    let x2 := s.readReg (full ah al)
    let y2 := s.readReg (full bh bl)
    back (decodeShort (shortBits 2 2 7 al bl)) (x = y) ∧
    back (decodeLong (longBits 2 2 15 7 ah bh 7 al bl)) (x2 = y2) ∧
    back (decodeShort (shortBits 2 3 7 al bl)) (x ≠ y) ∧
    back (decodeLong (longBits 2 3 15 7 ah bh 7 al bl)) (x2 ≠ y2) ∧
    back (decodeShort (shortBits 2 4 7 al bl)) (x.toInt < y.toInt) ∧
    back (decodeLong (longBits 2 4 15 7 ah bh 7 al bl)) (x2.toInt < y2.toInt) ∧
    back (decodeShort (shortBits 2 5 7 al bl)) (x.toInt > y.toInt) ∧
    back (decodeLong (longBits 2 5 15 7 ah bh 7 al bl)) (x2.toInt > y2.toInt) ∧
    back (decodeShort (shortBits 2 6 7 al bl)) (x < y) ∧
    back (decodeLong (longBits 2 6 15 7 ah bh 7 al bl)) (x2 < y2) ∧
    back (decodeShort (shortBits 2 7 7 al bl)) (x > y) ∧
    back (decodeLong (longBits 2 7 15 7 ah bh 7 al bl)) (x2 > y2)

/-- After reset pc is RESET_PC at its default 0, both output streams are empty, there is no exit code, and the
core is not halted; pc's default and the empty streams are the spec's own decisions D7 and D17. The zeros of
registers, V and memory are the model's choice (log entries 1 to 4) and are not stated.
(70_reset_and_hazards.md section 1, 92_eei_decisions.md D7, D17) -/
def Obligations.ResetState : Prop :=
  State.reset.pc = 0 ∧ State.reset.stdout = [] ∧ State.reset.stderr = [] ∧ State.reset.getExitCode = none ∧
    State.reset.halted = false

/-- loadCodeSection and loadDataSection write bytes[k] at address + k and leave every other byte and every other
part of the state; a section that would end past 0x20000 (code) or 0x10000 (data) is refused. Refusing is
the spec's own decision D21; refusing an empty section at an address above the top too is the model's choice
(log entry 19). (20_memory.md section 5, 70_reset_and_hazards.md section 2, 92_eei_decisions.md D21) -/
def Obligations.SectionLoadsWriteTheirBytes : Prop :=
  ∀ (s : State) (bytes : List Byte) (address : Nat),
    (131072 < address + bytes.length ↔ s.loadCodeSection bytes address = none) ∧
    (65536 < address + bytes.length ↔ s.loadDataSection bytes address = none) ∧
    (∀ t, s.loadCodeSection bytes address = some t → t = { s with codeMem := t.codeMem } ∧
      ∀ a, t.codeMem.read a = if address ≤ a then (bytes[a - address]?).getD (s.codeMem.read a) else s.codeMem.read a) ∧
    (∀ t, s.loadDataSection bytes address = some t → t = { s with dataMem := t.dataMem } ∧
      ∀ a, t.dataMem.read a = if address ≤ a then (bytes[a - address]?).getD (s.dataMem.read a) else s.dataMem.read a)

/-- A run of at most fuel steps ends in t exactly when some number n below fuel of steps returned Ok and the
step after them answered t with another status, so run never ends with Ok; and it is still running in t
exactly when all fuel steps returned Ok, so a program that produces no other status runs for ever. The
rule's run has no step limit; fuel only says how far one looks, and the statement is for every fuel (log
entry 18). (R101) -/
def Obligations.RunStopsAtTheFirstStatusOtherThanOk : Prop :=
  ∀ (fuel : Nat) (s t : State),
    (run fuel s = .ended t ↔
      t.status ≠ .ok ∧ ∃ n < fuel, ∃ u, okSteps n s = some u ∧ step u = .next t) ∧
    (run fuel s = .running t ↔ okSteps fuel s = some t)

/-- After setReg(i, v), getReg(i) is v modulo 2^16, every other register is as before, and so is every other
part of the state. (R11) -/
def Obligations.SetRegThenGetReg : Prop :=
  ∀ (s : State) (i : Reg) (v : Int),
    ((s.setReg i v).getReg i).toNat = (v % 65536).toNat ∧
    (∀ j, j ≠ i → (s.setReg i v).getReg j = s.getReg j) ∧
    s.setReg i v = { s with regs := (s.setReg i v).regs }

/-- The canonical form is unique: equal contents are equal lists. The list form is the model's choice (log entry
4). (20_memory.md section 5, 10_state.md section 6) -/
def Obligations.EqualReadingMemoriesAreEqual : Prop :=
  ∀ (limit : Nat) (m m' : Memory), m.wf limit = true → m'.wf limit = true →
    (∀ a, m.read a = m'.read a) → m = m'

/-- After a launch that refuses no section: the state satisfies the invariant, pc is the entry point, a register
that the host set once reads its value modulo 2^16, V is the flag if the host set one, both streams are
empty, there is no exit code and the core is not halted. The invariant's list form and output fields are the
model's choice (log entries 4, 6), and the host's setters are the spec's own decision D1.
(70_reset_and_hazards.md section 3, 70_reset_and_hazards.md section 2, 10_state.md section 9,
92_eei_decisions.md D1, D21) -/
def Obligations.ALaunchLeavesWhatTheHostSetUp : Prop :=
  ∀ (l : Launch) (s : State), launch l = some s →
    Inv s ∧ s.pc = l.entry ∧
    ((l.regs.map Prod.fst).Nodup → ∀ r v, (r, v) ∈ l.regs → (s.getReg r).toNat = (v % 65536).toNat) ∧
    (∀ b, l.overflow = some b → s.getOverflow = b) ∧
    s.stdout = [] ∧ s.stderr = [] ∧ s.getExitCode = none ∧ s.halted = false
end

