-- ==== Sys2Proof/Laws/Decode.lean ====
section
/-!
SUPPORT. The small lemmas of the decoder and the encoder: a frame taken apart and put together, fields split
into parts and joined, bytes and words.
-/

namespace Sys2Proof

/-! ## Frames -/

@[simp] theorem Frame.ofHalf_toHalf (f : Frame) : Frame.ofHalf f.toHalf = f := by
  obtain ⟨l, c, o, d, a, b⟩ := f
  simp only [Frame.ofHalf, Frame.toHalf, Frame.mk.injEq]
  refine ⟨?_, ?_, ?_, ?_, ?_, ?_⟩ <;>
  · apply BitVec.eq_of_getLsbD_eq
    intro i hi
    simp only [BitVec.getLsbD_extractLsb', BitVec.getLsbD_append]
    interval_cases i <;> simp

@[simp] theorem Frame.toHalf_ofHalf (h : Word) : (Frame.ofHalf h).toHalf = h := by
  apply BitVec.eq_of_getLsbD_eq
  intro i hi
  simp only [Frame.ofHalf, Frame.toHalf, BitVec.getLsbD_extractLsb', BitVec.getLsbD_append]
  interval_cases i <;> simp

/-- Two halfwords with the same frame are the same. -/
theorem Frame.ofHalf_inj {h k : Word} (e : Frame.ofHalf h = Frame.ofHalf k) : h = k := by
  rw [← Frame.toHalf_ofHalf h, e, Frame.toHalf_ofHalf]

/-! ## Bytes and words -/

@[simp] theorem wordOfBytes_low_high (v : Word) : wordOfBytes (lowByte v) (highByte v) = v := by
  apply BitVec.eq_of_getLsbD_eq
  intro i hi
  simp only [wordOfBytes, lowByte, highByte, BitVec.getLsbD_append, BitVec.getLsbD_extractLsb']
  interval_cases i <;> simp

@[simp] theorem lowByte_wordOfBytes (lo hi : Byte) : lowByte (wordOfBytes lo hi) = lo := by
  apply BitVec.eq_of_getLsbD_eq
  intro i hi
  simp only [wordOfBytes, lowByte, BitVec.getLsbD_append, BitVec.getLsbD_extractLsb']
  interval_cases i <;> simp

@[simp] theorem highByte_wordOfBytes (lo hi : Byte) : highByte (wordOfBytes lo hi) = hi := by
  apply BitVec.eq_of_getLsbD_eq
  intro i hi
  simp only [wordOfBytes, highByte, BitVec.getLsbD_append, BitVec.getLsbD_extractLsb']
  interval_cases i <;> simp

/-- The first halfword of a long word. -/
@[simp] theorem long_low (lo hi : Word) : (hi ++ lo).extractLsb' 0 16 = lo := by
  apply BitVec.eq_of_getLsbD_eq
  intro i hi
  simp only [BitVec.getLsbD_append, BitVec.getLsbD_extractLsb']
  interval_cases i <;> simp

/-- The second halfword of a long word. -/
@[simp] theorem long_high (lo hi : Word) : (hi ++ lo).extractLsb' 16 16 = hi := by
  apply BitVec.eq_of_getLsbD_eq
  intro i hi
  simp only [BitVec.getLsbD_append, BitVec.getLsbD_extractLsb']
  interval_cases i <;> simp

/-- A long word is its two halfwords. -/
theorem long_append (w : BitVec 32) : w.extractLsb' 16 16 ++ w.extractLsb' 0 16 = w := by
  apply BitVec.eq_of_getLsbD_eq
  intro i hi
  simp only [BitVec.getLsbD_append, BitVec.getLsbD_extractLsb']
  interval_cases i <;> simp

/-! ## Fields -/

/-- Joining neighbouring slices of a field gives the field they cover. -/
theorem bits_append {n : Nat} (v : BitVec n) (k p q : Nat) :
    v.extractLsb' (k + q) p ++ v.extractLsb' k q = v.extractLsb' k (p + q) := by
  apply BitVec.eq_of_getLsbD_eq
  intro i hi
  simp only [BitVec.getLsbD_append, BitVec.getLsbD_extractLsb']
  by_cases h : i < q
  · simp [h, show i < p + q by omega]
  · simp [h, show i - q < p by omega, hi, show k + q + (i - q) = k + i by omega]

/-- The whole field as a slice. -/
theorem bits_whole {n : Nat} (v : BitVec n) : v.extractLsb' 0 n = v := by
  apply BitVec.eq_of_getLsbD_eq
  intro i hi
  simp [hi]

@[simp] theorem full_high_low (r : Reg) : full (regHigh r) (regLow r) = r := by
  have h : regHigh r ++ regLow r = BitVec.ofNat 6 r.val :=
    (bits_append _ 0 3 3).trans (bits_whole _)
  apply Fin.ext
  simp only [full, h, BitVec.toNat_ofNat]
  have := r.isLt
  omega

theorem narrow_low (r : Reg) (h : narrowReg r = true) : narrow (regLow r) = r := by
  have h8 : r.val < 8 := of_decide_eq_true h
  apply Fin.ext
  simp only [narrow, regLow, BitVec.extractLsb'_toNat, BitVec.toNat_ofNat]
  omega

@[simp] theorem regLow_narrow (f : BitVec 3) : regLow (narrow f) = f := by
  have := f.isLt
  apply BitVec.eq_of_toNat_eq
  simp only [narrow, regLow, BitVec.extractLsb'_toNat, BitVec.toNat_ofNat]
  omega

theorem high_low_full (hi lo : BitVec 3) : regHigh (full hi lo) = hi ∧ regLow (full hi lo) = lo := by
  have e : BitVec.ofNat 6 (full hi lo).val = hi ++ lo := by
    apply BitVec.eq_of_toNat_eq
    have := (hi ++ lo).isLt
    simp only [full, BitVec.toNat_ofNat]
    omega
  unfold regHigh regLow
  rw [e]
  constructor <;>
  · apply BitVec.eq_of_getLsbD_eq
    intro i hi
    simp only [BitVec.getLsbD_extractLsb', BitVec.getLsbD_append]
    interval_cases i <;> simp

@[simp] theorem regHigh_full (hi lo : BitVec 3) : regHigh (full hi lo) = hi := (high_low_full hi lo).1
@[simp] theorem regLow_full (hi lo : BitVec 3) : regLow (full hi lo) = lo := (high_low_full hi lo).2

theorem narrowReg_narrow (f : BitVec 3) : narrowReg (narrow f) = true := by
  have := f.isLt
  exact decide_eq_true this

/-! ## Immediates and offsets -/

theorem ofNat_toNat_of_fits (w n : Nat) (h : fitsUnsigned w n = true) : (BitVec.ofNat w n).toNat = n := by
  have : n < 2 ^ w := of_decide_eq_true h
  simp [Nat.mod_eq_of_lt this]

theorem fitsUnsigned_toNat {w : Nat} (v : BitVec w) : fitsUnsigned w v.toNat = true :=
  decide_eq_true v.isLt

theorem ofNat_toNat_field {w : Nat} (v : BitVec w) : BitVec.ofNat w v.toNat = v := by
  simp

theorem shift_of_fits (w n : Nat) (h : fitsShift w n = true) : shiftAmount w (BitVec.ofNat w (n - 1)) = n := by
  have : 1 ≤ n ∧ n ≤ 2 ^ w := of_decide_eq_true h
  have h2 : n - 1 < 2 ^ w := by omega
  simp only [shiftAmount, BitVec.toNat_ofNat, Nat.mod_eq_of_lt h2]
  omega

theorem fitsShift_shift {w : Nat} (v : BitVec w) : fitsShift w (shiftAmount w v) = true := by
  have := v.isLt
  exact decide_eq_true (by unfold shiftAmount; omega)

theorem sext_of_fits (w : Nat) (z : Int) (hw : 0 < w) (h : fitsSigned w z = true) :
    sextFrom w (BitVec.ofInt w z) = z := by
  have hz : -(2 ^ (w - 1) : Int) ≤ z ∧ z < 2 ^ (w - 1) := of_decide_eq_true h
  obtain ⟨k, rfl⟩ : ∃ k, w = k + 1 := ⟨w - 1, by omega⟩
  simp only [Nat.add_sub_cancel] at hz
  unfold sextFrom
  rw [BitVec.toInt_ofInt]
  exact Int.bmod_eq_of_le (by push_cast; rw [pow_succ]; omega) (by push_cast; rw [pow_succ]; omega)

theorem fitsSigned_sext (w : Nat) (v : BitVec w) (hw : 0 < w) : fitsSigned w (sextFrom w v) = true := by
  obtain ⟨k, rfl⟩ : ∃ k, w = k + 1 := ⟨w - 1, by omega⟩
  refine decide_eq_true ⟨?_, ?_⟩
  · have := BitVec.le_toInt v
    simpa [sextFrom] using this
  · have := BitVec.toInt_lt (x := v)
    simpa [sextFrom] using this

theorem ofInt_sext (w : Nat) (v : BitVec w) : BitVec.ofInt w (sextFrom w v) = v := by
  simp [sextFrom]

/-! ## The decoder on a frame -/

/-- The decoder reads a short form from the frame alone. -/
theorem decodeShort_toHalf (f : Frame) : decodeShort f.toHalf =
    if f.l = 0 then
      match f.cls.toNat with
      | 0 => shortClass0 f
      | 1 => shortClass1 f
      | 2 => shortClass2 f
      | _ => none
    else none := by
  simp only [decodeShort, Frame.ofHalf_toHalf]
  try rfl

/-- The decoder reads a long form from the two frames alone. -/
theorem decodeLong_toHalf (f h : Frame) : decodeLong (h.toHalf ++ f.toHalf) =
    if f.l = 1 ∧ h.l = 0 ∧ h.cls = 0 then
      match f.cls.toNat with
      | 0 => longClass0 f h
      | 1 => longClass1 f h
      | 2 => longClass2 f h
      | _ => none
    else none := by
  simp only [decodeLong, long_low, long_high, Frame.ofHalf_toHalf]
  try rfl

/-! ## Immediate fields cut into 3- and 4-bit parts and joined again -/

@[simp] theorem bits3_join6 (v : BitVec 6) : bits3 v 3 ++ bits3 v 0 = v :=
  (bits_append v 0 3 3).trans (bits_whole v)

@[simp] theorem bits3_join9 (v : BitVec 9) : bits3 v 6 ++ bits3 v 3 ++ bits3 v 0 = v := by
  have h : bits3 v 6 ++ bits3 v 3 = v.extractLsb' 3 6 := bits_append v 3 3 3
  rw [h]
  exact (bits_append v 0 6 3).trans (bits_whole v)

@[simp] theorem bits4_join10 (v : BitVec 10) : bits4 v 6 ++ bits3 v 3 ++ bits3 v 0 = v := by
  have h : bits4 v 6 ++ bits3 v 3 = v.extractLsb' 3 7 := bits_append v 3 4 3
  rw [h]
  exact (bits_append v 0 7 3).trans (bits_whole v)

@[simp] theorem bits3_join12 (v : BitVec 12) : bits3 v 9 ++ bits3 v 6 ++ bits3 v 3 ++ bits3 v 0 = v := by
  have h : bits3 v 9 ++ bits3 v 6 = v.extractLsb' 6 6 := bits_append v 6 3 3
  have h2 : v.extractLsb' 6 6 ++ bits3 v 3 = v.extractLsb' 3 9 := bits_append v 3 6 3
  rw [h, h2]
  exact (bits_append v 0 9 3).trans (bits_whole v)

@[simp] theorem bits4_join16 (v : BitVec 16) :
    bits4 v 12 ++ bits3 v 9 ++ bits3 v 6 ++ bits3 v 3 ++ bits3 v 0 = v := by
  have h : bits4 v 12 ++ bits3 v 9 = v.extractLsb' 9 7 := bits_append v 9 4 3
  have h2 : v.extractLsb' 9 7 ++ bits3 v 6 = v.extractLsb' 6 10 := bits_append v 6 7 3
  have h3 : v.extractLsb' 6 10 ++ bits3 v 3 = v.extractLsb' 3 13 := bits_append v 3 10 3
  rw [h, h2, h3]
  exact (bits_append v 0 13 3).trans (bits_whole v)

@[simp] theorem bits4_join22 (v : BitVec 22) :
    bits4 v 18 ++ bits3 v 15 ++ bits3 v 12 ++ bits3 v 9 ++ bits3 v 6 ++ bits3 v 3 ++ bits3 v 0 = v := by
  have h : bits4 v 18 ++ bits3 v 15 = v.extractLsb' 15 7 := bits_append v 15 4 3
  have h2 : v.extractLsb' 15 7 ++ bits3 v 12 = v.extractLsb' 12 10 := bits_append v 12 7 3
  have h3 : v.extractLsb' 12 10 ++ bits3 v 9 = v.extractLsb' 9 13 := bits_append v 9 10 3
  have h4 : v.extractLsb' 9 13 ++ bits3 v 6 = v.extractLsb' 6 16 := bits_append v 6 13 3
  have h5 : v.extractLsb' 6 16 ++ bits3 v 3 = v.extractLsb' 3 19 := bits_append v 3 16 3
  rw [h, h2, h3, h4, h5]
  exact (bits_append v 0 19 3).trans (bits_whole v)

/-- X of an ANDI, ORI or XORI: its high 3 bits are the immediate's, its low bit is 1, so it is no X of 0. -/
theorem immX_high (v : BitVec 3) : (v ++ 1#1).extractLsb' 1 3 = v := by revert v; decide
theorem immX_low (v : BitVec 3) : (v ++ 1#1).extractLsb' 0 1 = 1#1 := by revert v; decide
theorem immX_ne_zero (v : BitVec 3) : v ++ 1#1 ≠ 0#4 := by revert v; decide

/-! ## The decoder on the words of the encoder -/

/-- A short form's bytes decode to what its frame spells. -/
theorem decode_shortWord (cls : BitVec 2) (op : BitVec 4) (d a b : BitVec 3) (i : Instr) (rest : List Byte)
    (hf : i.form = .short) (he : encode i = shortWord cls op d a b)
    (h : decodeShort (Frame.toHalf ⟨0, cls, op, d, a, b⟩) = some i) :
    decode (encodeBytes i ++ rest) = .success i i.form.bytes := by
  simp only [BitVec.ofNat_eq_ofNat] at h
  simp [encodeBytes, he, shortWord, decode, h, hf, Form.bytes]

/-- A long form's bytes decode to what its two frames spell. -/
theorem decode_longWords (cls : BitVec 2) (op x : BitVec 4) (dh ah bh dl al bl : BitVec 3) (i : Instr)
    (rest : List Byte) (hf : i.form = .long) (he : encode i = longWords cls op x dh ah bh dl al bl)
    (h : decodeLong (Frame.toHalf ⟨0, 0, x, dh, ah, bh⟩ ++ Frame.toHalf ⟨1, cls, op, dl, al, bl⟩) = some i) :
    decode (encodeBytes i ++ rest) = .success i i.form.bytes := by
  have hs : decodeShort (Frame.toHalf ⟨1, cls, op, dl, al, bl⟩) = none := by rw [decodeShort_toHalf]; rfl
  simp only [BitVec.ofNat_eq_ofNat] at h hs
  simp [encodeBytes, he, longWords, decode, h, hs, hf, Form.bytes]

end Sys2Proof
end

