-- ==== Sys2Proof/Laws/State.lean ====
section
/-!
SUPPORT. One lemma per field per update of the state, so that no proof unfolds a record update.
-/

namespace Sys2Proof.Machine

/-! ## writeReg -/

@[simp] theorem State.writeReg_regs (s : State) (r : Reg) (x : Word) : (s.writeReg r x).regs = s.regs.set r.val x r.isLt := rfl
@[simp] theorem State.writeReg_pc (s : State) (r : Reg) (x : Word) : (s.writeReg r x).pc = s.pc := rfl
@[simp] theorem State.writeReg_v (s : State) (r : Reg) (x : Word) : (s.writeReg r x).v = s.v := rfl
@[simp] theorem State.writeReg_exitCode (s : State) (r : Reg) (x : Word) : (s.writeReg r x).exitCode = s.exitCode := rfl
@[simp] theorem State.writeReg_exitValid (s : State) (r : Reg) (x : Word) : (s.writeReg r x).exitValid = s.exitValid := rfl
@[simp] theorem State.writeReg_codeMem (s : State) (r : Reg) (x : Word) : (s.writeReg r x).codeMem = s.codeMem := rfl
@[simp] theorem State.writeReg_dataMem (s : State) (r : Reg) (x : Word) : (s.writeReg r x).dataMem = s.dataMem := rfl
@[simp] theorem State.writeReg_stdout (s : State) (r : Reg) (x : Word) : (s.writeReg r x).stdout = s.stdout := rfl
@[simp] theorem State.writeReg_stderr (s : State) (r : Reg) (x : Word) : (s.writeReg r x).stderr = s.stderr := rfl
@[simp] theorem State.writeReg_halted (s : State) (r : Reg) (x : Word) : (s.writeReg r x).halted = s.halted := rfl
@[simp] theorem State.writeReg_status (s : State) (r : Reg) (x : Word) : (s.writeReg r x).status = s.status := rfl
@[simp] theorem State.writeReg_failSize (s : State) (r : Reg) (x : Word) : (s.writeReg r x).failSize = s.failSize := rfl
@[simp] theorem State.writeReg_readData (s : State) (r : Reg) (x : Word) (q : Word) : (s.writeReg r x).readData q = s.readData q := rfl
@[simp] theorem State.writeReg_fetch (s : State) (r : Reg) (x : Word) : (s.writeReg r x).fetch = s.fetch := rfl

/-! ## writeV -/

@[simp] theorem State.writeV_regs (s : State) (b : Bool) : (s.writeV b).regs = s.regs := rfl
@[simp] theorem State.writeV_pc (s : State) (b : Bool) : (s.writeV b).pc = s.pc := rfl
@[simp] theorem State.writeV_v (s : State) (b : Bool) : (s.writeV b).v = b := rfl
@[simp] theorem State.writeV_exitCode (s : State) (b : Bool) : (s.writeV b).exitCode = s.exitCode := rfl
@[simp] theorem State.writeV_exitValid (s : State) (b : Bool) : (s.writeV b).exitValid = s.exitValid := rfl
@[simp] theorem State.writeV_codeMem (s : State) (b : Bool) : (s.writeV b).codeMem = s.codeMem := rfl
@[simp] theorem State.writeV_dataMem (s : State) (b : Bool) : (s.writeV b).dataMem = s.dataMem := rfl
@[simp] theorem State.writeV_stdout (s : State) (b : Bool) : (s.writeV b).stdout = s.stdout := rfl
@[simp] theorem State.writeV_stderr (s : State) (b : Bool) : (s.writeV b).stderr = s.stderr := rfl
@[simp] theorem State.writeV_halted (s : State) (b : Bool) : (s.writeV b).halted = s.halted := rfl
@[simp] theorem State.writeV_status (s : State) (b : Bool) : (s.writeV b).status = s.status := rfl
@[simp] theorem State.writeV_failSize (s : State) (b : Bool) : (s.writeV b).failSize = s.failSize := rfl
@[simp] theorem State.writeV_readReg (s : State) (b : Bool) (q : Reg) : (s.writeV b).readReg q = s.readReg q := rfl
@[simp] theorem State.writeV_readData (s : State) (b : Bool) (q : Word) : (s.writeV b).readData q = s.readData q := rfl
@[simp] theorem State.writeV_fetch (s : State) (b : Bool) : (s.writeV b).fetch = s.fetch := rfl

/-! ## writeData -/

@[simp] theorem State.writeData_regs (s : State) (a : Word) (b : Byte) : (s.writeData a b).regs = s.regs := rfl
@[simp] theorem State.writeData_pc (s : State) (a : Word) (b : Byte) : (s.writeData a b).pc = s.pc := rfl
@[simp] theorem State.writeData_v (s : State) (a : Word) (b : Byte) : (s.writeData a b).v = s.v := rfl
@[simp] theorem State.writeData_exitCode (s : State) (a : Word) (b : Byte) : (s.writeData a b).exitCode = s.exitCode := rfl
@[simp] theorem State.writeData_exitValid (s : State) (a : Word) (b : Byte) : (s.writeData a b).exitValid = s.exitValid := rfl
@[simp] theorem State.writeData_codeMem (s : State) (a : Word) (b : Byte) : (s.writeData a b).codeMem = s.codeMem := rfl
@[simp] theorem State.writeData_dataMem (s : State) (a : Word) (b : Byte) : (s.writeData a b).dataMem = s.dataMem.write a.toNat b := rfl
@[simp] theorem State.writeData_stdout (s : State) (a : Word) (b : Byte) : (s.writeData a b).stdout = s.stdout := rfl
@[simp] theorem State.writeData_stderr (s : State) (a : Word) (b : Byte) : (s.writeData a b).stderr = s.stderr := rfl
@[simp] theorem State.writeData_halted (s : State) (a : Word) (b : Byte) : (s.writeData a b).halted = s.halted := rfl
@[simp] theorem State.writeData_status (s : State) (a : Word) (b : Byte) : (s.writeData a b).status = s.status := rfl
@[simp] theorem State.writeData_failSize (s : State) (a : Word) (b : Byte) : (s.writeData a b).failSize = s.failSize := rfl
@[simp] theorem State.writeData_readReg (s : State) (a : Word) (b : Byte) (q : Reg) : (s.writeData a b).readReg q = s.readReg q := rfl
@[simp] theorem State.writeData_fetch (s : State) (a : Word) (b : Byte) : (s.writeData a b).fetch = s.fetch := rfl

/-! ## emitStdout -/

@[simp] theorem State.emitStdout_regs (s : State) (b : Byte) : (s.emitStdout b).regs = s.regs := rfl
@[simp] theorem State.emitStdout_pc (s : State) (b : Byte) : (s.emitStdout b).pc = s.pc := rfl
@[simp] theorem State.emitStdout_v (s : State) (b : Byte) : (s.emitStdout b).v = s.v := rfl
@[simp] theorem State.emitStdout_exitCode (s : State) (b : Byte) : (s.emitStdout b).exitCode = s.exitCode := rfl
@[simp] theorem State.emitStdout_exitValid (s : State) (b : Byte) : (s.emitStdout b).exitValid = s.exitValid := rfl
@[simp] theorem State.emitStdout_codeMem (s : State) (b : Byte) : (s.emitStdout b).codeMem = s.codeMem := rfl
@[simp] theorem State.emitStdout_dataMem (s : State) (b : Byte) : (s.emitStdout b).dataMem = s.dataMem := rfl
@[simp] theorem State.emitStdout_stdout (s : State) (b : Byte) : (s.emitStdout b).stdout = s.stdout ++ [b] := rfl
@[simp] theorem State.emitStdout_stderr (s : State) (b : Byte) : (s.emitStdout b).stderr = s.stderr := rfl
@[simp] theorem State.emitStdout_halted (s : State) (b : Byte) : (s.emitStdout b).halted = s.halted := rfl
@[simp] theorem State.emitStdout_status (s : State) (b : Byte) : (s.emitStdout b).status = s.status := rfl
@[simp] theorem State.emitStdout_failSize (s : State) (b : Byte) : (s.emitStdout b).failSize = s.failSize := rfl
@[simp] theorem State.emitStdout_readReg (s : State) (b : Byte) (q : Reg) : (s.emitStdout b).readReg q = s.readReg q := rfl
@[simp] theorem State.emitStdout_readData (s : State) (b : Byte) (q : Word) : (s.emitStdout b).readData q = s.readData q := rfl
@[simp] theorem State.emitStdout_fetch (s : State) (b : Byte) : (s.emitStdout b).fetch = s.fetch := rfl

/-! ## emitStderr -/

@[simp] theorem State.emitStderr_regs (s : State) (b : Byte) : (s.emitStderr b).regs = s.regs := rfl
@[simp] theorem State.emitStderr_pc (s : State) (b : Byte) : (s.emitStderr b).pc = s.pc := rfl
@[simp] theorem State.emitStderr_v (s : State) (b : Byte) : (s.emitStderr b).v = s.v := rfl
@[simp] theorem State.emitStderr_exitCode (s : State) (b : Byte) : (s.emitStderr b).exitCode = s.exitCode := rfl
@[simp] theorem State.emitStderr_exitValid (s : State) (b : Byte) : (s.emitStderr b).exitValid = s.exitValid := rfl
@[simp] theorem State.emitStderr_codeMem (s : State) (b : Byte) : (s.emitStderr b).codeMem = s.codeMem := rfl
@[simp] theorem State.emitStderr_dataMem (s : State) (b : Byte) : (s.emitStderr b).dataMem = s.dataMem := rfl
@[simp] theorem State.emitStderr_stdout (s : State) (b : Byte) : (s.emitStderr b).stdout = s.stdout := rfl
@[simp] theorem State.emitStderr_stderr (s : State) (b : Byte) : (s.emitStderr b).stderr = s.stderr ++ [b] := rfl
@[simp] theorem State.emitStderr_halted (s : State) (b : Byte) : (s.emitStderr b).halted = s.halted := rfl
@[simp] theorem State.emitStderr_status (s : State) (b : Byte) : (s.emitStderr b).status = s.status := rfl
@[simp] theorem State.emitStderr_failSize (s : State) (b : Byte) : (s.emitStderr b).failSize = s.failSize := rfl
@[simp] theorem State.emitStderr_readReg (s : State) (b : Byte) (q : Reg) : (s.emitStderr b).readReg q = s.readReg q := rfl
@[simp] theorem State.emitStderr_readData (s : State) (b : Byte) (q : Word) : (s.emitStderr b).readData q = s.readData q := rfl
@[simp] theorem State.emitStderr_fetch (s : State) (b : Byte) : (s.emitStderr b).fetch = s.fetch := rfl

/-! ## captureExit -/

@[simp] theorem State.captureExit_regs (s : State) (x : Word) : (s.captureExit x).regs = s.regs := rfl
@[simp] theorem State.captureExit_pc (s : State) (x : Word) : (s.captureExit x).pc = s.pc := rfl
@[simp] theorem State.captureExit_v (s : State) (x : Word) : (s.captureExit x).v = s.v := rfl
@[simp] theorem State.captureExit_exitCode (s : State) (x : Word) : (s.captureExit x).exitCode = x := rfl
@[simp] theorem State.captureExit_exitValid (s : State) (x : Word) : (s.captureExit x).exitValid = true := rfl
@[simp] theorem State.captureExit_codeMem (s : State) (x : Word) : (s.captureExit x).codeMem = s.codeMem := rfl
@[simp] theorem State.captureExit_dataMem (s : State) (x : Word) : (s.captureExit x).dataMem = s.dataMem := rfl
@[simp] theorem State.captureExit_stdout (s : State) (x : Word) : (s.captureExit x).stdout = s.stdout := rfl
@[simp] theorem State.captureExit_stderr (s : State) (x : Word) : (s.captureExit x).stderr = s.stderr := rfl
@[simp] theorem State.captureExit_halted (s : State) (x : Word) : (s.captureExit x).halted = s.halted := rfl
@[simp] theorem State.captureExit_status (s : State) (x : Word) : (s.captureExit x).status = s.status := rfl
@[simp] theorem State.captureExit_failSize (s : State) (x : Word) : (s.captureExit x).failSize = s.failSize := rfl
@[simp] theorem State.captureExit_readReg (s : State) (x : Word) (q : Reg) : (s.captureExit x).readReg q = s.readReg q := rfl
@[simp] theorem State.captureExit_readData (s : State) (x : Word) (q : Word) : (s.captureExit x).readData q = s.readData q := rfl
@[simp] theorem State.captureExit_fetch (s : State) (x : Word) : (s.captureExit x).fetch = s.fetch := rfl

/-! ## commit -/

@[simp] theorem State.commit_regs (s : State) (n : Word) (st : StepStatus) : (s.commit n st).regs = s.regs := rfl
@[simp] theorem State.commit_pc (s : State) (n : Word) (st : StepStatus) : (s.commit n st).pc = n := rfl
@[simp] theorem State.commit_v (s : State) (n : Word) (st : StepStatus) : (s.commit n st).v = s.v := rfl
@[simp] theorem State.commit_exitCode (s : State) (n : Word) (st : StepStatus) : (s.commit n st).exitCode = s.exitCode := rfl
@[simp] theorem State.commit_exitValid (s : State) (n : Word) (st : StepStatus) : (s.commit n st).exitValid = s.exitValid := rfl
@[simp] theorem State.commit_codeMem (s : State) (n : Word) (st : StepStatus) : (s.commit n st).codeMem = s.codeMem := rfl
@[simp] theorem State.commit_dataMem (s : State) (n : Word) (st : StepStatus) : (s.commit n st).dataMem = s.dataMem := rfl
@[simp] theorem State.commit_stdout (s : State) (n : Word) (st : StepStatus) : (s.commit n st).stdout = s.stdout := rfl
@[simp] theorem State.commit_stderr (s : State) (n : Word) (st : StepStatus) : (s.commit n st).stderr = s.stderr := rfl
@[simp] theorem State.commit_halted (s : State) (n : Word) (st : StepStatus) : (s.commit n st).halted = s.halted := rfl
@[simp] theorem State.commit_status (s : State) (n : Word) (st : StepStatus) : (s.commit n st).status = st := rfl
@[simp] theorem State.commit_failSize (s : State) (n : Word) (st : StepStatus) : (s.commit n st).failSize = none := rfl
@[simp] theorem State.commit_readReg (s : State) (n : Word) (st : StepStatus) (q : Reg) : (s.commit n st).readReg q = s.readReg q := rfl
@[simp] theorem State.commit_readData (s : State) (n : Word) (st : StepStatus) (q : Word) : (s.commit n st).readData q = s.readData q := rfl

/-! ## retire -/

@[simp] theorem State.retire_regs (s : State) (f : Form) : (s.retire f).regs = s.regs := rfl
@[simp] theorem State.retire_pc (s : State) (f : Form) : (s.retire f).pc = s.seqPc f := rfl
@[simp] theorem State.retire_v (s : State) (f : Form) : (s.retire f).v = s.v := rfl
@[simp] theorem State.retire_exitCode (s : State) (f : Form) : (s.retire f).exitCode = s.exitCode := rfl
@[simp] theorem State.retire_exitValid (s : State) (f : Form) : (s.retire f).exitValid = s.exitValid := rfl
@[simp] theorem State.retire_codeMem (s : State) (f : Form) : (s.retire f).codeMem = s.codeMem := rfl
@[simp] theorem State.retire_dataMem (s : State) (f : Form) : (s.retire f).dataMem = s.dataMem := rfl
@[simp] theorem State.retire_stdout (s : State) (f : Form) : (s.retire f).stdout = s.stdout := rfl
@[simp] theorem State.retire_stderr (s : State) (f : Form) : (s.retire f).stderr = s.stderr := rfl
@[simp] theorem State.retire_halted (s : State) (f : Form) : (s.retire f).halted = s.halted := rfl
@[simp] theorem State.retire_status (s : State) (f : Form) : (s.retire f).status = .ok := rfl
@[simp] theorem State.retire_failSize (s : State) (f : Form) : (s.retire f).failSize = none := rfl
@[simp] theorem State.retire_readReg (s : State) (f : Form) (q : Reg) : (s.retire f).readReg q = s.readReg q := rfl
@[simp] theorem State.retire_readData (s : State) (f : Form) (q : Word) : (s.retire f).readData q = s.readData q := rfl

/-! ## decodeFailed -/

@[simp] theorem State.decodeFailed_regs (s : State) (sz : FailSize) : (s.decodeFailed sz).regs = s.regs := rfl
@[simp] theorem State.decodeFailed_pc (s : State) (sz : FailSize) : (s.decodeFailed sz).pc = s.pc := rfl
@[simp] theorem State.decodeFailed_v (s : State) (sz : FailSize) : (s.decodeFailed sz).v = s.v := rfl
@[simp] theorem State.decodeFailed_exitCode (s : State) (sz : FailSize) : (s.decodeFailed sz).exitCode = s.exitCode := rfl
@[simp] theorem State.decodeFailed_exitValid (s : State) (sz : FailSize) : (s.decodeFailed sz).exitValid = s.exitValid := rfl
@[simp] theorem State.decodeFailed_codeMem (s : State) (sz : FailSize) : (s.decodeFailed sz).codeMem = s.codeMem := rfl
@[simp] theorem State.decodeFailed_dataMem (s : State) (sz : FailSize) : (s.decodeFailed sz).dataMem = s.dataMem := rfl
@[simp] theorem State.decodeFailed_stdout (s : State) (sz : FailSize) : (s.decodeFailed sz).stdout = s.stdout := rfl
@[simp] theorem State.decodeFailed_stderr (s : State) (sz : FailSize) : (s.decodeFailed sz).stderr = s.stderr := rfl
@[simp] theorem State.decodeFailed_halted (s : State) (sz : FailSize) : (s.decodeFailed sz).halted = s.halted := rfl
@[simp] theorem State.decodeFailed_status (s : State) (sz : FailSize) : (s.decodeFailed sz).status = .invalidInstruction := rfl
@[simp] theorem State.decodeFailed_failSize (s : State) (sz : FailSize) : (s.decodeFailed sz).failSize = some sz := rfl
@[simp] theorem State.decodeFailed_readReg (s : State) (sz : FailSize) (q : Reg) : (s.decodeFailed sz).readReg q = s.readReg q := rfl
@[simp] theorem State.decodeFailed_readData (s : State) (sz : FailSize) (q : Word) : (s.decodeFailed sz).readData q = s.readData q := rfl
@[simp] theorem State.decodeFailed_fetch (s : State) (sz : FailSize) : (s.decodeFailed sz).fetch = s.fetch := rfl

/-! ## placeAtPc -/

@[simp] theorem State.placeAtPc_regs (s : State) (bs : List Byte) : (s.placeAtPc bs).regs = s.regs := rfl
@[simp] theorem State.placeAtPc_pc (s : State) (bs : List Byte) : (s.placeAtPc bs).pc = s.pc := rfl
@[simp] theorem State.placeAtPc_v (s : State) (bs : List Byte) : (s.placeAtPc bs).v = s.v := rfl
@[simp] theorem State.placeAtPc_exitCode (s : State) (bs : List Byte) : (s.placeAtPc bs).exitCode = s.exitCode := rfl
@[simp] theorem State.placeAtPc_exitValid (s : State) (bs : List Byte) : (s.placeAtPc bs).exitValid = s.exitValid := rfl
@[simp] theorem State.placeAtPc_dataMem (s : State) (bs : List Byte) : (s.placeAtPc bs).dataMem = s.dataMem := rfl
@[simp] theorem State.placeAtPc_stdout (s : State) (bs : List Byte) : (s.placeAtPc bs).stdout = s.stdout := rfl
@[simp] theorem State.placeAtPc_stderr (s : State) (bs : List Byte) : (s.placeAtPc bs).stderr = s.stderr := rfl
@[simp] theorem State.placeAtPc_halted (s : State) (bs : List Byte) : (s.placeAtPc bs).halted = s.halted := rfl
@[simp] theorem State.placeAtPc_status (s : State) (bs : List Byte) : (s.placeAtPc bs).status = s.status := rfl
@[simp] theorem State.placeAtPc_failSize (s : State) (bs : List Byte) : (s.placeAtPc bs).failSize = s.failSize := rfl
@[simp] theorem State.placeAtPc_readReg (s : State) (bs : List Byte) (q : Reg) : (s.placeAtPc bs).readReg q = s.readReg q := rfl
@[simp] theorem State.placeAtPc_readData (s : State) (bs : List Byte) (q : Word) : (s.placeAtPc bs).readData q = s.readData q := rfl

/-! ## setPC -/

@[simp] theorem State.setPC_regs (s : State) (x : Word) : (s.setPC x).regs = s.regs := rfl
@[simp] theorem State.setPC_pc (s : State) (x : Word) : (s.setPC x).pc = x := rfl
@[simp] theorem State.setPC_v (s : State) (x : Word) : (s.setPC x).v = s.v := rfl
@[simp] theorem State.setPC_exitCode (s : State) (x : Word) : (s.setPC x).exitCode = s.exitCode := rfl
@[simp] theorem State.setPC_exitValid (s : State) (x : Word) : (s.setPC x).exitValid = s.exitValid := rfl
@[simp] theorem State.setPC_codeMem (s : State) (x : Word) : (s.setPC x).codeMem = s.codeMem := rfl
@[simp] theorem State.setPC_dataMem (s : State) (x : Word) : (s.setPC x).dataMem = s.dataMem := rfl
@[simp] theorem State.setPC_stdout (s : State) (x : Word) : (s.setPC x).stdout = s.stdout := rfl
@[simp] theorem State.setPC_stderr (s : State) (x : Word) : (s.setPC x).stderr = s.stderr := rfl
@[simp] theorem State.setPC_halted (s : State) (x : Word) : (s.setPC x).halted = s.halted := rfl
@[simp] theorem State.setPC_status (s : State) (x : Word) : (s.setPC x).status = s.status := rfl
@[simp] theorem State.setPC_failSize (s : State) (x : Word) : (s.setPC x).failSize = s.failSize := rfl
@[simp] theorem State.setPC_readReg (s : State) (x : Word) (q : Reg) : (s.setPC x).readReg q = s.readReg q := rfl
@[simp] theorem State.setPC_readData (s : State) (x : Word) (q : Word) : (s.setPC x).readData q = s.readData q := rfl

/-! ## memWrite -/

@[simp] theorem State.memWrite_regs (s : State) (a : Word) (sz : AccessSize) (x : Word) :
    (s.memWrite a sz x).regs = s.regs := by cases sz <;> rfl
@[simp] theorem State.memWrite_pc (s : State) (a : Word) (sz : AccessSize) (x : Word) :
    (s.memWrite a sz x).pc = s.pc := by cases sz <;> rfl
@[simp] theorem State.memWrite_v (s : State) (a : Word) (sz : AccessSize) (x : Word) :
    (s.memWrite a sz x).v = s.v := by cases sz <;> rfl
@[simp] theorem State.memWrite_exitCode (s : State) (a : Word) (sz : AccessSize) (x : Word) :
    (s.memWrite a sz x).exitCode = s.exitCode := by cases sz <;> rfl
@[simp] theorem State.memWrite_exitValid (s : State) (a : Word) (sz : AccessSize) (x : Word) :
    (s.memWrite a sz x).exitValid = s.exitValid := by cases sz <;> rfl
@[simp] theorem State.memWrite_codeMem (s : State) (a : Word) (sz : AccessSize) (x : Word) :
    (s.memWrite a sz x).codeMem = s.codeMem := by cases sz <;> rfl
@[simp] theorem State.memWrite_stdout (s : State) (a : Word) (sz : AccessSize) (x : Word) :
    (s.memWrite a sz x).stdout = s.stdout := by cases sz <;> rfl
@[simp] theorem State.memWrite_stderr (s : State) (a : Word) (sz : AccessSize) (x : Word) :
    (s.memWrite a sz x).stderr = s.stderr := by cases sz <;> rfl
@[simp] theorem State.memWrite_halted (s : State) (a : Word) (sz : AccessSize) (x : Word) :
    (s.memWrite a sz x).halted = s.halted := by cases sz <;> rfl
@[simp] theorem State.memWrite_status (s : State) (a : Word) (sz : AccessSize) (x : Word) :
    (s.memWrite a sz x).status = s.status := by cases sz <;> rfl
@[simp] theorem State.memWrite_failSize (s : State) (a : Word) (sz : AccessSize) (x : Word) :
    (s.memWrite a sz x).failSize = s.failSize := by cases sz <;> rfl
@[simp] theorem State.memWrite_readReg (s : State) (a : Word) (sz : AccessSize) (x : Word) (q : Reg) :
    (s.memWrite a sz x).readReg q = s.readReg q := by cases sz <;> rfl

/-! ## Registers -/

/-- Reading after writing: the register written gives the value, every other what it held (10_state.md R10). -/
@[simp] theorem State.readReg_writeReg (s : State) (r q : Reg) (x : Word) :
    (s.writeReg r x).readReg q = if q = r then x else s.readReg q := by
  unfold State.readReg State.writeReg
  by_cases h : q = r
  · subst h; simp
  · have h' : r.val ≠ q.val := fun e => h (Fin.ext e.symm)
    simp [h, h']

end Sys2Proof.Machine
end

