-- ==== Sys2Proof/Laws/Memory.lean ====
section
/-!
SUPPORT. What the memory operations do: reading after writing, and that every operation keeps the canonical
form.
-/

namespace Sys2Proof.Machine

@[simp] theorem Memory.read_nil (a : Nat) : Memory.read [] a = Config.unlistedByte := rfl

theorem Memory.read_cons (k : Nat) (b : Byte) (m : Memory) (a : Nat) :
    Memory.read ((k, b) :: m) a = if k = a then b else Memory.read m a := rfl

theorem Memory.read_insert (m : Memory) (a x : Nat) (v : Byte) :
    Memory.read (Memory.insert a v m) x = if x = a then v else Memory.read m x := by
  induction m with
  | nil => simp [Memory.insert, Memory.read_cons, eq_comm]
  | cons c m ih =>
    obtain ⟨k, b⟩ := c
    unfold Memory.insert
    split
    · simp [Memory.read_cons, eq_comm]
    · split
      · rename_i h; subst h; by_cases hx : a = x <;> simp [Memory.read_cons, hx, eq_comm]
      · rename_i h
        by_cases hk : k = x
        · subst hk; simp [Memory.read_cons, Ne.symm h]
        · simp [Memory.read_cons, hk, ih]

theorem Memory.read_erase (m : Memory) (a x : Nat) :
    Memory.read (m.filter fun c => c.1 != a) x = if x = a then Config.unlistedByte else Memory.read m x := by
  induction m with
  | nil => simp
  | cons c m ih =>
    obtain ⟨k, b⟩ := c
    by_cases hka : k = a <;> by_cases hkx : k = x <;> simp_all [Memory.read_cons]

/-- A byte written is read back, and every other address reads as before (20_memory.md R34). -/
@[simp] theorem Memory.read_write (m : Memory) (a x : Nat) (v : Byte) :
    (m.write a v).read x = if x = a then v else m.read x := by
  unfold Memory.write
  split
  · rename_i h; rw [Memory.read_erase, h]
  · exact Memory.read_insert m a x v

/-- A run of bytes written is read back in place, and every other address reads as before (R45). -/
theorem Memory.read_writeAll (bytes : List Byte) (m : Memory) (a x : Nat) :
    (m.writeAll a bytes).read x =
      if a ≤ x then (bytes[x - a]?).getD (m.read x) else m.read x := by
  induction bytes generalizing m a with
  | nil => simp [Memory.writeAll]
  | cons b bs ih =>
    rw [Memory.writeAll, ih, Memory.read_write]
    by_cases h : a ≤ x
    · by_cases hx : x = a
      · subst hx; simp
      · obtain ⟨k, rfl⟩ : ∃ k, x = a + 1 + k := ⟨x - (a + 1), by omega⟩
        simp [show a + 1 + k - a = k + 1 by omega, hx, show a ≤ a + 1 + k by omega]
    · have h1 : ¬ a + 1 ≤ x := by omega
      have h2 : x ≠ a := by omega
      simp [h, h1, h2]

/-! ## The canonical form -/

theorem Memory.wf_cons (limit a : Nat) (b : Byte) (m : Memory) :
    Memory.wf limit ((a, b) :: m) = true ↔
      a < limit ∧ b ≠ Config.unlistedByte ∧ (∀ c ∈ m, a < c.1) ∧ Memory.wf limit m = true := by
  simp [Memory.wf, and_assoc]

theorem Memory.insert_bound (m : Memory) (a k : Nat) (v : Byte) (h : ∀ c ∈ m, k < c.1) (ha : k < a) :
    ∀ c ∈ Memory.insert a v m, k < c.1 := by
  induction m with
  | nil => simp [Memory.insert, ha]
  | cons c m ih =>
    obtain ⟨k', b⟩ := c
    unfold Memory.insert
    have hk := h (k', b) (by simp)
    have ht : ∀ c ∈ m, k < c.1 := fun c hc => h c (by simp [hc])
    split
    · intro c hc
      rcases List.mem_cons.1 hc with rfl | hc
      · exact ha
      · exact h c hc
    · split
      · intro c hc
        rcases List.mem_cons.1 hc with rfl | hc
        · exact ha
        · exact ht c hc
      · intro c hc
        rcases List.mem_cons.1 hc with rfl | hc
        · exact hk
        · exact ih ht c hc

theorem Memory.wf_insert (limit : Nat) (m : Memory) (a : Nat) (v : Byte) (hm : m.wf limit = true)
    (ha : a < limit) (hv : v ≠ Config.unlistedByte) : Memory.wf limit (Memory.insert a v m) = true := by
  induction m with
  | nil => simp [Memory.insert, Memory.wf, ha, hv]
  | cons c m ih =>
    obtain ⟨k, b⟩ := c
    obtain ⟨hk, hb, hall, ht⟩ := (Memory.wf_cons _ _ _ _).1 hm
    unfold Memory.insert
    split
    · rename_i hlt
      refine (Memory.wf_cons _ _ _ _).2 ⟨ha, hv, ?_, hm⟩
      intro c hc
      rcases List.mem_cons.1 hc with rfl | hc
      · exact hlt
      · exact lt_trans hlt (hall c hc)
    · split
      · rename_i he; subst he
        exact (Memory.wf_cons _ _ _ _).2 ⟨ha, hv, hall, ht⟩
      · rename_i h1 h2
        exact (Memory.wf_cons _ _ _ _).2
          ⟨hk, hb, Memory.insert_bound m a k v hall (by omega), ih ht⟩

theorem Memory.wf_erase (limit : Nat) (m : Memory) (a : Nat) (hm : m.wf limit = true) :
    Memory.wf limit (m.filter fun c => c.1 != a) = true := by
  induction m with
  | nil => exact hm
  | cons c m ih =>
    obtain ⟨k, b⟩ := c
    obtain ⟨hk, hb, hall, ht⟩ := (Memory.wf_cons _ _ _ _).1 hm
    by_cases h : k = a
    · simp [h]; simpa using ih ht
    · have : ((k, b) :: m).filter (fun c => c.1 != a) = (k, b) :: m.filter (fun c => c.1 != a) := by
        simp [h]
      rw [this]
      exact (Memory.wf_cons _ _ _ _).2 ⟨hk, hb, fun c hc => hall c (List.mem_filter.1 hc).1, ih ht⟩

/-- Writing a byte below the top keeps the canonical form. -/
theorem Memory.wf_write (limit : Nat) (m : Memory) (a : Nat) (v : Byte) (hm : m.wf limit = true)
    (ha : a < limit) : (m.write a v).wf limit = true := by
  unfold Memory.write
  split
  · exact Memory.wf_erase limit m a hm
  · rename_i h; exact Memory.wf_insert limit m a v hm ha h

/-- Writing a run of bytes below the top keeps the canonical form. -/
theorem Memory.wf_writeAll (limit : Nat) (bytes : List Byte) (m : Memory) (a : Nat) (hm : m.wf limit = true)
    (ha : a + bytes.length ≤ limit) : (m.writeAll a bytes).wf limit = true := by
  induction bytes generalizing m a with
  | nil => exact hm
  | cons b bs ih =>
    simp only [List.length_cons] at ha
    exact ih _ _ (Memory.wf_write limit m a b hm (by omega)) (by omega)

/-- A section load that is not refused keeps the canonical form (R45, R207). -/
theorem loadSection_wf (limit : Nat) (bytes : List Byte) (a : Nat) (m m' : Memory) (hm : m.wf limit = true)
    (h : loadSection limit bytes a m = some m') : m'.wf limit = true := by
  unfold loadSection at h
  split at h
  · rename_i ha; cases h; exact Memory.wf_writeAll limit bytes m a hm ha
  · cases h

/-- The reset state's memories are in canonical form. -/
theorem State.reset_mem_wf :
    State.reset.codeMem.wf Config.codeBytes = true ∧ State.reset.dataMem.wf Config.dataBytes = true :=
  ⟨rfl, rfl⟩

/-- Placing bytes at the pc keeps code memory's canonical form. -/
theorem State.placeAtPc_wf (s : State) (bytes : List Byte) (h : s.codeMem.wf Config.codeBytes = true) :
    (s.placeAtPc bytes).codeMem.wf Config.codeBytes = true := by
  have hpc := s.pc.isLt
  refine Memory.wf_writeAll _ _ _ _ h ?_
  simp only [List.length_take, Config.codeBytes]
  omega

/-- The host's byte ports keep the canonical form. -/
theorem State.setDataMem_wf (s : State) (a : Word) (b : Byte) (h : s.dataMem.wf Config.dataBytes = true) :
    (s.setDataMem a b).dataMem.wf Config.dataBytes = true :=
  Memory.wf_write _ _ _ _ h a.isLt

theorem State.setCodeMem_wf (s : State) (a : BitVec 17) (b : Byte) (h : s.codeMem.wf Config.codeBytes = true) :
    (s.setCodeMem a b).codeMem.wf Config.codeBytes = true :=
  Memory.wf_write _ _ _ _ h a.isLt

/-- A store keeps data memory's canonical form: its addresses are 16-bit words. -/
theorem State.memWrite_wf (s : State) (a : Word) (sz : AccessSize) (v : Word)
    (h : s.dataMem.wf Config.dataBytes = true) : (s.memWrite a sz v).dataMem.wf Config.dataBytes = true := by
  cases sz with
  | byte => exact Memory.wf_write _ _ _ _ h a.isLt
  | word => exact Memory.wf_write _ _ _ _ (Memory.wf_write _ _ _ _ h a.isLt) (a + 1).isLt

end Sys2Proof.Machine
end

