-- ==== Sys2Proof/Laws/Ops.lean ====
section
/-!
SUPPORT. One lemma per shared operation that says once everything it can do.
-/

namespace Sys2Proof.Machine

/-! ## Data memory -/

/-- A byte written is read back, every other address reads as before (20_memory.md R34). -/
@[simp] theorem State.readData_writeData (s : State) (a x : Word) (b : Byte) :
    (s.writeData a b).readData x = if x = a then b else s.readData x := by
  simp [State.readData, BitVec.toNat_inj]

/-- A data byte is read the same from states with the same data memory. -/
theorem State.readData_congr {s t : State} (h : t.dataMem = s.dataMem) (a : Word) :
    t.readData a = s.readData a := by simp [State.readData, h]

/-- What `MemWrite` does, byte by byte (R34). -/
theorem State.readData_memWrite (s : State) (a x v : Word) (sz : AccessSize) :
    (s.memWrite a sz v).readData x =
      match sz with
      | .byte => if x = a then lowByte v else s.readData x
      | .word => if x = a + 1 then highByte v else if x = a then lowByte v else s.readData x := by
  cases sz <;> simp [State.memWrite]

theorem State.memRead_congr {s t : State} (h : t.dataMem = s.dataMem) (a : Word) (sz : AccessSize) :
    t.memRead a sz = s.memRead a sz := by cases sz <;> simp [State.memRead, State.readData, h]

/-! ## Fetch -/

/-- Fetch reads the code bytes and the pc and nothing else. -/
theorem State.fetch_congr {s t : State} (hm : t.codeMem = s.codeMem) (hp : t.pc = s.pc) :
    t.fetch = s.fetch := by
  have h : t.codeRead = s.codeRead := by funext a; simp [State.codeRead, hm]
  simp [State.fetch, State.fetchAddrs, h, hp]

/-! ## What the shared operations of the meanings answer -/

theorem writeBack_next (f : Form) (rd : Reg) (v : Word) (s t : State) :
    writeBack f rd v s = .next t ↔ t = (s.writeReg rd v).retire f := by
  simp [writeBack, eq_comm]

theorem writeArith_next (f : Form) (rd : Reg) (r : ArithResult) (s t : State) :
    writeArith f rd r s = .next t ↔ t = ((s.writeReg rd r.value).writeV r.v).retire f := by
  simp [writeArith, eq_comm]

theorem load_next (f : Form) (sz : AccessSize) (mode : AddrMode) (rd ra : Reg) (off : Int) (s t : State) :
    load f sz mode rd ra off s = .next t ↔
      t = (loadWrite sz mode rd ra (basePointer sz mode (s.readReg ra))
        (s.memRead (accessAddr sz mode (s.readReg ra) off) sz) s).retire f := by
  simp [load, eq_comm]

theorem store_next (f : Form) (sz : AccessSize) (mode : AddrMode) (rd : Reg) (off : Int) (ra : Reg) (s t : State) :
    store f sz mode rd off ra s = .next t ↔
      t = (storePointer sz mode rd
        (s.memWrite (accessAddr sz mode (s.readReg rd) off) sz (storedValue sz mode rd ra s))).retire f := by
  simp [store, eq_comm]

theorem jump_next (target : Word) (s t : State) : jump target s = .next t ↔ t = s.commit target .ok := by
  simp [jump, eq_comm]

theorem branchIf_next (f : Form) (taken : Bool) (off : Int) (s t : State) :
    branchIf f taken off s = .next t ↔
      t = s.commit (if taken then branchTarget s off else s.seqPc f) .ok := by
  simp [branchIf, eq_comm]

theorem linkAndJump_next (f : Form) (rb : Reg) (target : Word) (s t : State) :
    linkAndJump f rb target s = .next t ↔ t = (s.writeReg rb (s.seqPc f)).commit target .ok := by
  simp [linkAndJump, eq_comm]

/-- The NOP's command table (41_system_nop.md R105). -/
theorem nopCommand_next (f : Form) (rd : Reg) (cmd : Nat) (s t : State) :
    nopCommand f rd cmd s = .next t ↔
      (cmd = 0 ∧ t = s.commit (s.seqPc f) .breakpoint) ∨
      (cmd = 2 ∧ t = (s.captureExit (s.readReg rd)).commit (s.seqPc f) .quit) ∨
      (cmd = 3 ∧ t = (s.emitStdout (lowByte (s.readReg rd))).retire f) ∨
      (cmd = 4 ∧ t = (s.emitStderr (lowByte (s.readReg rd))).retire f) ∨
      ((cmd = 1 ∨ 5 ≤ cmd) ∧ t = s.retire f) := by
  match cmd with
  | 0 => simp [nopCommand, eq_comm]
  | 1 => simp [nopCommand, eq_comm]
  | 2 => simp [nopCommand, eq_comm]
  | 3 => simp [nopCommand, eq_comm]
  | 4 => simp [nopCommand, eq_comm]
  | n + 5 => simp [nopCommand, eq_comm]

/-! ## The registers a load or store leaves -/

theorem loadWrite_readReg (sz : AccessSize) (mode : AddrMode) (rd ra q : Reg) (base val : Word) (s : State) :
    (loadWrite sz mode rd ra base val s).readReg q =
      match mode with
      | .plain => if q = rd then val else s.readReg q
      | .predec => if q = rd then val else if q = ra then base else s.readReg q
      | .postinc =>
        if rd = ra then if q = rd then postincSameReg sz base val else s.readReg q
        else if q = ra then base + sz.step else if q = rd then val else s.readReg q := by
  cases mode <;> simp [loadWrite]
  split <;> simp

theorem storePointer_readReg (sz : AccessSize) (mode : AddrMode) (rd q : Reg) (s : State) :
    (storePointer sz mode rd s).readReg q =
      match mode with
      | .plain => s.readReg q
      | .predec => if q = rd then s.readReg rd - sz.step else s.readReg q
      | .postinc => if q = rd then s.readReg rd + sz.step else s.readReg q := by
  cases mode <;> simp [storePointer]

/-- A load writes registers only. -/
theorem loadWrite_rest (sz : AccessSize) (mode : AddrMode) (rd ra : Reg) (base val : Word) (s : State) :
    ∃ regs, loadWrite sz mode rd ra base val s = { s with regs := regs } := by
  cases mode
  · exact ⟨_, rfl⟩
  · unfold loadWrite; dsimp only; split <;> exact ⟨_, rfl⟩
  · exact ⟨_, rfl⟩

/-- The pointer update of a store writes registers only. -/
theorem storePointer_rest (sz : AccessSize) (mode : AddrMode) (rd : Reg) (s : State) :
    ∃ regs, storePointer sz mode rd s = { s with regs := regs } := by
  cases mode
  · exact ⟨s.regs, rfl⟩
  · exact ⟨_, rfl⟩
  · exact ⟨_, rfl⟩

end Sys2Proof.Machine
end

