-- ==== Sys2Proof/Laws/Exec.lean ====
section
/-!
SUPPORT. What executing an instruction can do, said once for all of them: every instruction answers a next
state, which is one of a few updates of the state before, committed.
-/

namespace Sys2Proof.Machine

open Sys2Proof.Safety

/-- What an instruction may have done to the state when it commits. -/
inductive Effect (s : State) : State → Prop where
  | nothing : Effect s s
  | reg (r : Reg) (v : Word) : Effect s (s.writeReg r v)
  | arith (r : Reg) (v : Word) (b : Bool) : Effect s ((s.writeReg r v).writeV b)
  | twoRegs (r q : Reg) (v w : Word) : Effect s ((s.writeReg r v).writeReg q w)
  | exitCode (v : Word) : Effect s (s.captureExit v)
  | stdout (b : Byte) : Effect s (s.emitStdout b)
  | stderr (b : Byte) : Effect s (s.emitStderr b)
  | mem (a : Word) (sz : AccessSize) (v : Word) : Effect s (s.memWrite a sz v)
  | memReg (a : Word) (sz : AccessSize) (v : Word) (r : Reg) (w : Word) :
      Effect s ((s.memWrite a sz v).writeReg r w)

/-- The answer is an effect on `s` committed with status `st`. -/
def Commits (s : State) (st : StepStatus) (r : Result) : Prop :=
  ∃ u n, Effect s u ∧ r = .next (u.commit n st)

theorem writeBack_commits (f : Form) (rd : Reg) (v : Word) (s : State) :
    Commits s .ok (writeBack f rd v s) := ⟨_, _, .reg rd v, rfl⟩

theorem writeArith_commits (f : Form) (rd : Reg) (r : ArithResult) (s : State) :
    Commits s .ok (writeArith f rd r s) := ⟨_, _, .arith rd r.value r.v, rfl⟩

theorem load_commits (f : Form) (sz : AccessSize) (mode : AddrMode) (rd ra : Reg) (off : Int) (s : State) :
    Commits s .ok (load f sz mode rd ra off s) := by
  cases mode
  · exact ⟨_, _, .reg _ _, rfl⟩
  · unfold load loadWrite
    by_cases h : rd = ra
    · simp only [h, if_true]; exact ⟨_, _, .reg _ _, rfl⟩
    · simp only [h, if_false]; exact ⟨_, _, .twoRegs _ _ _ _, rfl⟩
  · exact ⟨_, _, .twoRegs _ _ _ _, rfl⟩

theorem store_commits (f : Form) (sz : AccessSize) (mode : AddrMode) (rd : Reg) (off : Int) (ra : Reg) (s : State) :
    Commits s .ok (store f sz mode rd off ra s) := by
  cases mode
  · exact ⟨_, _, .mem _ _ _, rfl⟩
  · exact ⟨_, _, .memReg _ _ _ _ _, rfl⟩
  · exact ⟨_, _, .memReg _ _ _ _ _, rfl⟩

theorem jump_commits (target : Word) (s : State) : Commits s .ok (jump target s) := ⟨_, _, .nothing, rfl⟩

theorem branchIf_commits (f : Form) (taken : Bool) (off : Int) (s : State) :
    Commits s .ok (branchIf f taken off s) := ⟨_, _, .nothing, rfl⟩

theorem linkAndJump_commits (f : Form) (rb : Reg) (target : Word) (s : State) :
    Commits s .ok (linkAndJump f rb target s) := ⟨_, _, .reg _ _, rfl⟩

theorem nopCommand_commits (f : Form) (rd : Reg) (cmd : Nat) (s : State) :
    Commits s (match cmd with | 0 => .breakpoint | 2 => .quit | _ => .ok) (nopCommand f rd cmd s) := by
  match cmd with
  | 0 => exact ⟨_, _, .nothing, rfl⟩
  | 1 => exact ⟨_, _, .nothing, rfl⟩
  | 2 => exact ⟨_, _, .exitCode _, rfl⟩
  | 3 => exact ⟨_, _, .stdout _, rfl⟩
  | 4 => exact ⟨_, _, .stderr _, rfl⟩
  | _ + 5 => exact ⟨_, _, .nothing, rfl⟩

/-- Every instruction commits an effect, with the status its rule returns (40_execution_cycle.md R95, R97). -/
theorem exec_commits (i : Instr) (s : State) : Commits s (returnedStatus i) (exec i s) := by
  cases i
  case nopS rd cmd =>
    have h := nopCommand_commits .short rd cmd s
    match cmd with
    | 0 => exact h
    | 1 => exact h
    | 2 => exact h
    | _ + 3 => exact h
  case nopL rd cmd =>
    have h := nopCommand_commits .long rd cmd s
    match cmd with
    | 0 => exact h
    | 1 => exact h
    | 2 => exact h
    | _ + 3 => exact h
  all_goals first
    | exact writeBack_commits _ _ _ _
    | exact writeArith_commits _ _ _ _
    | exact load_commits _ _ _ _ _ _ _
    | exact store_commits _ _ _ _ _ _ _
    | exact jump_commits _ _
    | exact branchIf_commits _ _ _ _
    | exact linkAndJump_commits _ _ _ _

/-- An instruction that answers next `t` committed an effect. -/
theorem exec_next (i : Instr) (s t : State) (h : exec i s = .next t) :
    ∃ u n, Effect s u ∧ t = u.commit n (returnedStatus i) := by
  obtain ⟨u, n, hu, he⟩ := exec_commits i s
  rw [he] at h
  exact ⟨u, n, hu, by cases h; rfl⟩

/-- Say once what a step can do: nothing on a halted core; else it executes the decoded instruction or reports
a decode failure (R90, R93). -/
theorem step_cases (s : State) :
    (s.halted = true ∧ step s = .fault .halted) ∨
    (s.halted = false ∧ ∃ i n, decode s.fetch = .success i n ∧ step s = exec i s) ∨
    (s.halted = false ∧ ∃ r, decode s.fetch = .failure r ∧ step s = .next (s.decodeFailed r.size)) := by
  unfold step
  cases hh : s.halted
  · cases hd : decode s.fetch with
    | success i n => exact .inr (.inl ⟨rfl, i, n, rfl, rfl⟩)
    | failure r => exact .inr (.inr ⟨rfl, r, rfl, rfl⟩)
  · exact .inl ⟨rfl, rfl⟩

/-- A step that answers next `t` committed an instruction's effect or reported a decode failure. -/
theorem step_next (s t : State) (h : step s = .next t) :
    s.halted = false ∧
      ((∃ i n u pc', decode s.fetch = .success i n ∧ Effect s u ∧ t = u.commit pc' (returnedStatus i)) ∨
       (∃ r, decode s.fetch = .failure r ∧ t = s.decodeFailed r.size)) := by
  rcases step_cases s with ⟨_, he⟩ | ⟨hh, i, n, hd, he⟩ | ⟨hh, r, hd, he⟩
  · rw [he] at h; cases h
  · rw [he] at h
    obtain ⟨u, pc', hu, ht⟩ := exec_next i s t h
    exact ⟨hh, .inl ⟨i, n, u, pc', hd, hu, ht⟩⟩
  · rw [he] at h; cases h
    exact ⟨hh, .inr ⟨r, hd, rfl⟩⟩

end Sys2Proof.Machine
end

