-- ==== Sys2Proof/Laws/Operands.lean ====
section
/-!
SUPPORT. What the operand functions and the flag computation give, as plain arithmetic.
-/

namespace Sys2Proof.Machine

/-- `V` is set exactly when the result does not fit 16 signed bits (43_arith.md R115). -/
theorem arithResult_v (res : Int) : (arithResult res).v = decide (res < -32768 ∨ res > 32767) := by
  simp only [arithResult, s16, sextFrom, trunc16, BitVec.toInt_ofInt, decide_eq_decide, Int.bmod_def]
  norm_num
  split <;> omega

@[simp] theorem arithResult_value (res : Int) : (arithResult res).value = BitVec.ofInt 16 res := rfl

/-- MOVI's mask is the immediate modulo 2^16 (42_move.md R111). -/
theorem maskedImm_eq (imm : Nat) : maskedImm imm = BitVec.ofNat 16 (imm % 65536) :=
  congrArg (BitVec.ofNat 16) (Nat.and_two_pow_sub_one_eq_mod imm 16)

/-- A shift amount is the register modulo 16 (45_shift.md R135). -/
theorem shiftByReg_eq (v : Word) : shiftByReg v = v.toNat % 16 := by
  simp only [shiftByReg, BitVec.toNat_and]
  exact Nat.and_two_pow_sub_one_eq_mod v.toNat 4

/-- A shift amount is the decoded operand modulo 16 (R135). -/
theorem shiftByImm_eq (n : Nat) : shiftByImm n = n % 16 := Nat.and_two_pow_sub_one_eq_mod n 4

/-- LSL multiplies by a power of two (R135). -/
theorem lsl16_eq (v : Word) (n : Nat) : lsl16 v n = BitVec.ofNat 16 (v.toNat * 2 ^ n) := by
  apply BitVec.eq_of_toNat_eq
  simp [lsl16, Nat.shiftLeft_eq]

/-- LSR divides the unsigned value (R135). -/
theorem lsr16_eq (v : Word) (n : Nat) : lsr16 v n = BitVec.ofNat 16 (v.toNat / 2 ^ n) := by
  apply BitVec.eq_of_toNat_eq
  simp only [lsr16, BitVec.toNat_ushiftRight, Nat.shiftRight_eq_div_pow, BitVec.toNat_ofNat]
  exact (Nat.mod_eq_of_lt (lt_of_le_of_lt (Nat.div_le_self _ _) v.isLt)).symm

/-- ASR divides the signed value, rounding down (R135). -/
theorem asr16_eq (v : Word) (n : Nat) : asr16 v n = BitVec.ofInt 16 (v.toInt / 2 ^ n) := by
  unfold asr16 BitVec.sshiftRight
  rw [Int.shiftRight_eq_div_pow]
  norm_cast

/-- A load changes no data byte. -/
theorem load_readData (f : Form) (sz : AccessSize) (mode : AddrMode) (rd ra : Reg) (off : Int) (s t : State)
    (h : load f sz mode rd ra off s = .next t) (a : Word) : t.readData a = s.readData a := by
  rw [load_next] at h
  subst h
  obtain ⟨regs, e⟩ := loadWrite_rest sz mode rd ra (basePointer sz mode (s.readReg ra))
    (s.memRead (accessAddr sz mode (s.readReg ra) off) sz) s
  rw [e]
  rfl

/-- The data bytes after a store are those of its `MemWrite`. -/
theorem store_readData (f : Form) (sz : AccessSize) (mode : AddrMode) (rd : Reg) (off : Int) (ra : Reg)
    (s t : State) (h : store f sz mode rd off ra s = .next t) (a : Word) :
    t.readData a = (s.memWrite (accessAddr sz mode (s.readReg rd) off) sz (storedValue sz mode rd ra s)).readData a := by
  rw [store_next] at h
  subst h
  obtain ⟨regs, e⟩ := storePointer_rest sz mode rd
    (s.memWrite (accessAddr sz mode (s.readReg rd) off) sz (storedValue sz mode rd ra s))
  rw [e]
  rfl

end Sys2Proof.Machine
end

