-- ==== Sys2Proof/Laws/PerInstr.lean ====
section
/-!
SUPPORT. Facts about every instruction as syntax, one lemma per constructor: how many bytes it is encoded in,
and that a short form names registers 0 to 7 only.
-/

namespace Sys2Proof.Laws

/-- The encoding is as long as the form says (30_encoding.md R50). -/
def EncodedSize.Statement (i : Instr) : Prop := (encodeBytes i).length = i.form.bytes

/-- Every register operand of a well-formed short instruction is of the narrow class (R57). -/
def NarrowRegs.Statement (i : Instr) : Prop :=
  i.form = .short → i.WellFormed = true → ∀ r : Reg, Operand.reg r ∈ i.operands → narrowReg r = true

theorem EncodedSize.nopS (rd : Reg) (cmd : Nat) : EncodedSize.Statement (.nopS rd cmd) := rfl
theorem EncodedSize.nopL (rd : Reg) (cmd : Nat) : EncodedSize.Statement (.nopL rd cmd) := rfl
theorem EncodedSize.addS (rd : Reg) (ra : Reg) (rb : Reg) : EncodedSize.Statement (.addS rd ra rb) := rfl
theorem EncodedSize.addL (rd : Reg) (ra : Reg) (rb : Reg) : EncodedSize.Statement (.addL rd ra rb) := rfl
theorem EncodedSize.subS (rd : Reg) (ra : Reg) (rb : Reg) : EncodedSize.Statement (.subS rd ra rb) := rfl
theorem EncodedSize.subL (rd : Reg) (ra : Reg) (rb : Reg) : EncodedSize.Statement (.subL rd ra rb) := rfl
theorem EncodedSize.andS (rd : Reg) (ra : Reg) (rb : Reg) : EncodedSize.Statement (.andS rd ra rb) := rfl
theorem EncodedSize.andL (rd : Reg) (ra : Reg) (rb : Reg) : EncodedSize.Statement (.andL rd ra rb) := rfl
theorem EncodedSize.orS (rd : Reg) (ra : Reg) (rb : Reg) : EncodedSize.Statement (.orS rd ra rb) := rfl
theorem EncodedSize.orL (rd : Reg) (ra : Reg) (rb : Reg) : EncodedSize.Statement (.orL rd ra rb) := rfl
theorem EncodedSize.xorS (rd : Reg) (ra : Reg) (rb : Reg) : EncodedSize.Statement (.xorS rd ra rb) := rfl
theorem EncodedSize.xorL (rd : Reg) (ra : Reg) (rb : Reg) : EncodedSize.Statement (.xorL rd ra rb) := rfl
theorem EncodedSize.asrS (rd : Reg) (ra : Reg) (rb : Reg) : EncodedSize.Statement (.asrS rd ra rb) := rfl
theorem EncodedSize.asrL (rd : Reg) (ra : Reg) (rb : Reg) : EncodedSize.Statement (.asrL rd ra rb) := rfl
theorem EncodedSize.lslS (rd : Reg) (ra : Reg) (rb : Reg) : EncodedSize.Statement (.lslS rd ra rb) := rfl
theorem EncodedSize.lslL (rd : Reg) (ra : Reg) (rb : Reg) : EncodedSize.Statement (.lslL rd ra rb) := rfl
theorem EncodedSize.lsrS (rd : Reg) (ra : Reg) (rb : Reg) : EncodedSize.Statement (.lsrS rd ra rb) := rfl
theorem EncodedSize.lsrL (rd : Reg) (ra : Reg) (rb : Reg) : EncodedSize.Statement (.lsrL rd ra rb) := rfl
theorem EncodedSize.movS (rd : Reg) (ra : Reg) : EncodedSize.Statement (.movS rd ra) := rfl
theorem EncodedSize.movL (rd : Reg) (ra : Reg) : EncodedSize.Statement (.movL rd ra) := rfl
theorem EncodedSize.addiS (rd : Reg) (ra : Reg) (imm : Nat) : EncodedSize.Statement (.addiS rd ra imm) := rfl
theorem EncodedSize.addiL (rd : Reg) (ra : Reg) (imm : Nat) : EncodedSize.Statement (.addiL rd ra imm) := rfl
theorem EncodedSize.subiS (rd : Reg) (ra : Reg) (imm : Nat) : EncodedSize.Statement (.subiS rd ra imm) := rfl
theorem EncodedSize.subiL (rd : Reg) (ra : Reg) (imm : Nat) : EncodedSize.Statement (.subiL rd ra imm) := rfl
theorem EncodedSize.asriS (rd : Reg) (ra : Reg) (sh : Nat) : EncodedSize.Statement (.asriS rd ra sh) := rfl
theorem EncodedSize.asriL (rd : Reg) (ra : Reg) (sh : Nat) : EncodedSize.Statement (.asriL rd ra sh) := rfl
theorem EncodedSize.lsliS (rd : Reg) (ra : Reg) (sh : Nat) : EncodedSize.Statement (.lsliS rd ra sh) := rfl
theorem EncodedSize.lsliL (rd : Reg) (ra : Reg) (sh : Nat) : EncodedSize.Statement (.lsliL rd ra sh) := rfl
theorem EncodedSize.lsriS (rd : Reg) (ra : Reg) (sh : Nat) : EncodedSize.Statement (.lsriS rd ra sh) := rfl
theorem EncodedSize.lsriL (rd : Reg) (ra : Reg) (sh : Nat) : EncodedSize.Statement (.lsriL rd ra sh) := rfl
theorem EncodedSize.moviS (rd : Reg) (imm : Nat) : EncodedSize.Statement (.moviS rd imm) := rfl
theorem EncodedSize.moviL (rd : Reg) (imm : Nat) : EncodedSize.Statement (.moviL rd imm) := rfl
theorem EncodedSize.addcL (rd : Reg) (ra : Reg) (rb : Reg) : EncodedSize.Statement (.addcL rd ra rb) := rfl
theorem EncodedSize.subcL (rd : Reg) (ra : Reg) (rb : Reg) : EncodedSize.Statement (.subcL rd ra rb) := rfl
theorem EncodedSize.andiL (rd : Reg) (ra : Reg) (imm : Nat) : EncodedSize.Statement (.andiL rd ra imm) := rfl
theorem EncodedSize.oriL (rd : Reg) (ra : Reg) (imm : Nat) : EncodedSize.Statement (.oriL rd ra imm) := rfl
theorem EncodedSize.xoriL (rd : Reg) (ra : Reg) (imm : Nat) : EncodedSize.Statement (.xoriL rd ra imm) := rfl
theorem EncodedSize.ldbS (rd : Reg) (ra : Reg) (off : Int) : EncodedSize.Statement (.ldbS rd ra off) := rfl
theorem EncodedSize.ldbL (rd : Reg) (ra : Reg) (off : Int) : EncodedSize.Statement (.ldbL rd ra off) := rfl
theorem EncodedSize.ldbPostincS (rd : Reg) (ra : Reg) (off : Int) : EncodedSize.Statement (.ldbPostincS rd ra off) := rfl
theorem EncodedSize.ldbPostincL (rd : Reg) (ra : Reg) (off : Int) : EncodedSize.Statement (.ldbPostincL rd ra off) := rfl
theorem EncodedSize.ldbPredecS (rd : Reg) (ra : Reg) (off : Int) : EncodedSize.Statement (.ldbPredecS rd ra off) := rfl
theorem EncodedSize.ldbPredecL (rd : Reg) (ra : Reg) (off : Int) : EncodedSize.Statement (.ldbPredecL rd ra off) := rfl
theorem EncodedSize.ldwS (rd : Reg) (ra : Reg) (off : Int) : EncodedSize.Statement (.ldwS rd ra off) := rfl
theorem EncodedSize.ldwL (rd : Reg) (ra : Reg) (off : Int) : EncodedSize.Statement (.ldwL rd ra off) := rfl
theorem EncodedSize.ldwPostincS (rd : Reg) (ra : Reg) (off : Int) : EncodedSize.Statement (.ldwPostincS rd ra off) := rfl
theorem EncodedSize.ldwPostincL (rd : Reg) (ra : Reg) (off : Int) : EncodedSize.Statement (.ldwPostincL rd ra off) := rfl
theorem EncodedSize.ldwPredecS (rd : Reg) (ra : Reg) (off : Int) : EncodedSize.Statement (.ldwPredecS rd ra off) := rfl
theorem EncodedSize.ldwPredecL (rd : Reg) (ra : Reg) (off : Int) : EncodedSize.Statement (.ldwPredecL rd ra off) := rfl
theorem EncodedSize.stbS (rd : Reg) (off : Int) (ra : Reg) : EncodedSize.Statement (.stbS rd off ra) := rfl
theorem EncodedSize.stbL (rd : Reg) (off : Int) (ra : Reg) : EncodedSize.Statement (.stbL rd off ra) := rfl
theorem EncodedSize.stbPostincS (rd : Reg) (off : Int) (ra : Reg) : EncodedSize.Statement (.stbPostincS rd off ra) := rfl
theorem EncodedSize.stbPostincL (rd : Reg) (off : Int) (ra : Reg) : EncodedSize.Statement (.stbPostincL rd off ra) := rfl
theorem EncodedSize.stbPredecS (rd : Reg) (off : Int) (ra : Reg) : EncodedSize.Statement (.stbPredecS rd off ra) := rfl
theorem EncodedSize.stbPredecL (rd : Reg) (off : Int) (ra : Reg) : EncodedSize.Statement (.stbPredecL rd off ra) := rfl
theorem EncodedSize.stwS (rd : Reg) (off : Int) (ra : Reg) : EncodedSize.Statement (.stwS rd off ra) := rfl
theorem EncodedSize.stwL (rd : Reg) (off : Int) (ra : Reg) : EncodedSize.Statement (.stwL rd off ra) := rfl
theorem EncodedSize.stwPostincS (rd : Reg) (off : Int) (ra : Reg) : EncodedSize.Statement (.stwPostincS rd off ra) := rfl
theorem EncodedSize.stwPostincL (rd : Reg) (off : Int) (ra : Reg) : EncodedSize.Statement (.stwPostincL rd off ra) := rfl
theorem EncodedSize.stwPredecS (rd : Reg) (off : Int) (ra : Reg) : EncodedSize.Statement (.stwPredecS rd off ra) := rfl
theorem EncodedSize.stwPredecL (rd : Reg) (off : Int) (ra : Reg) : EncodedSize.Statement (.stwPredecL rd off ra) := rfl
theorem EncodedSize.braS (off : Int) : EncodedSize.Statement (.braS off) := rfl
theorem EncodedSize.braL (off : Int) : EncodedSize.Statement (.braL off) := rfl
theorem EncodedSize.balS (off : Int) (rb : Reg) : EncodedSize.Statement (.balS off rb) := rfl
theorem EncodedSize.balL (off : Int) (rb : Reg) : EncodedSize.Statement (.balL off rb) := rfl
theorem EncodedSize.beqS (off : Int) (ra : Reg) (rb : Reg) : EncodedSize.Statement (.beqS off ra rb) := rfl
theorem EncodedSize.beqL (off : Int) (ra : Reg) (rb : Reg) : EncodedSize.Statement (.beqL off ra rb) := rfl
theorem EncodedSize.bneS (off : Int) (ra : Reg) (rb : Reg) : EncodedSize.Statement (.bneS off ra rb) := rfl
theorem EncodedSize.bneL (off : Int) (ra : Reg) (rb : Reg) : EncodedSize.Statement (.bneL off ra rb) := rfl
theorem EncodedSize.bltsS (off : Int) (ra : Reg) (rb : Reg) : EncodedSize.Statement (.bltsS off ra rb) := rfl
theorem EncodedSize.bltsL (off : Int) (ra : Reg) (rb : Reg) : EncodedSize.Statement (.bltsL off ra rb) := rfl
theorem EncodedSize.bgtsS (off : Int) (ra : Reg) (rb : Reg) : EncodedSize.Statement (.bgtsS off ra rb) := rfl
theorem EncodedSize.bgtsL (off : Int) (ra : Reg) (rb : Reg) : EncodedSize.Statement (.bgtsL off ra rb) := rfl
theorem EncodedSize.bltuS (off : Int) (ra : Reg) (rb : Reg) : EncodedSize.Statement (.bltuS off ra rb) := rfl
theorem EncodedSize.bltuL (off : Int) (ra : Reg) (rb : Reg) : EncodedSize.Statement (.bltuL off ra rb) := rfl
theorem EncodedSize.bgtuS (off : Int) (ra : Reg) (rb : Reg) : EncodedSize.Statement (.bgtuS off ra rb) := rfl
theorem EncodedSize.bgtuL (off : Int) (ra : Reg) (rb : Reg) : EncodedSize.Statement (.bgtuL off ra rb) := rfl
theorem EncodedSize.jmpS (rd : Reg) : EncodedSize.Statement (.jmpS rd) := rfl
theorem EncodedSize.jmpL (rd : Reg) : EncodedSize.Statement (.jmpL rd) := rfl
theorem EncodedSize.jalS (rd : Reg) (rb : Reg) : EncodedSize.Statement (.jalS rd rb) := rfl
theorem EncodedSize.jalL (rd : Reg) (rb : Reg) : EncodedSize.Statement (.jalL rd rb) := rfl

theorem NarrowRegs.nopS (rd : Reg) (cmd : Nat) : NarrowRegs.Statement (.nopS rd cmd) := by
  simp_all [NarrowRegs.Statement, Instr.WellFormed, Instr.operands]
theorem NarrowRegs.nopL (rd : Reg) (cmd : Nat) : NarrowRegs.Statement (.nopL rd cmd) := nofun
theorem NarrowRegs.addS (rd : Reg) (ra : Reg) (rb : Reg) : NarrowRegs.Statement (.addS rd ra rb) := by
  simp_all [NarrowRegs.Statement, Instr.WellFormed, Instr.operands]
theorem NarrowRegs.addL (rd : Reg) (ra : Reg) (rb : Reg) : NarrowRegs.Statement (.addL rd ra rb) := nofun
theorem NarrowRegs.subS (rd : Reg) (ra : Reg) (rb : Reg) : NarrowRegs.Statement (.subS rd ra rb) := by
  simp_all [NarrowRegs.Statement, Instr.WellFormed, Instr.operands]
theorem NarrowRegs.subL (rd : Reg) (ra : Reg) (rb : Reg) : NarrowRegs.Statement (.subL rd ra rb) := nofun
theorem NarrowRegs.andS (rd : Reg) (ra : Reg) (rb : Reg) : NarrowRegs.Statement (.andS rd ra rb) := by
  simp_all [NarrowRegs.Statement, Instr.WellFormed, Instr.operands]
theorem NarrowRegs.andL (rd : Reg) (ra : Reg) (rb : Reg) : NarrowRegs.Statement (.andL rd ra rb) := nofun
theorem NarrowRegs.orS (rd : Reg) (ra : Reg) (rb : Reg) : NarrowRegs.Statement (.orS rd ra rb) := by
  simp_all [NarrowRegs.Statement, Instr.WellFormed, Instr.operands]
theorem NarrowRegs.orL (rd : Reg) (ra : Reg) (rb : Reg) : NarrowRegs.Statement (.orL rd ra rb) := nofun
theorem NarrowRegs.xorS (rd : Reg) (ra : Reg) (rb : Reg) : NarrowRegs.Statement (.xorS rd ra rb) := by
  simp_all [NarrowRegs.Statement, Instr.WellFormed, Instr.operands]
theorem NarrowRegs.xorL (rd : Reg) (ra : Reg) (rb : Reg) : NarrowRegs.Statement (.xorL rd ra rb) := nofun
theorem NarrowRegs.asrS (rd : Reg) (ra : Reg) (rb : Reg) : NarrowRegs.Statement (.asrS rd ra rb) := by
  simp_all [NarrowRegs.Statement, Instr.WellFormed, Instr.operands]
theorem NarrowRegs.asrL (rd : Reg) (ra : Reg) (rb : Reg) : NarrowRegs.Statement (.asrL rd ra rb) := nofun
theorem NarrowRegs.lslS (rd : Reg) (ra : Reg) (rb : Reg) : NarrowRegs.Statement (.lslS rd ra rb) := by
  simp_all [NarrowRegs.Statement, Instr.WellFormed, Instr.operands]
theorem NarrowRegs.lslL (rd : Reg) (ra : Reg) (rb : Reg) : NarrowRegs.Statement (.lslL rd ra rb) := nofun
theorem NarrowRegs.lsrS (rd : Reg) (ra : Reg) (rb : Reg) : NarrowRegs.Statement (.lsrS rd ra rb) := by
  simp_all [NarrowRegs.Statement, Instr.WellFormed, Instr.operands]
theorem NarrowRegs.lsrL (rd : Reg) (ra : Reg) (rb : Reg) : NarrowRegs.Statement (.lsrL rd ra rb) := nofun
theorem NarrowRegs.movS (rd : Reg) (ra : Reg) : NarrowRegs.Statement (.movS rd ra) := by
  simp_all [NarrowRegs.Statement, Instr.WellFormed, Instr.operands]
theorem NarrowRegs.movL (rd : Reg) (ra : Reg) : NarrowRegs.Statement (.movL rd ra) := nofun
theorem NarrowRegs.addiS (rd : Reg) (ra : Reg) (imm : Nat) : NarrowRegs.Statement (.addiS rd ra imm) := by
  simp_all [NarrowRegs.Statement, Instr.WellFormed, Instr.operands]
theorem NarrowRegs.addiL (rd : Reg) (ra : Reg) (imm : Nat) : NarrowRegs.Statement (.addiL rd ra imm) := nofun
theorem NarrowRegs.subiS (rd : Reg) (ra : Reg) (imm : Nat) : NarrowRegs.Statement (.subiS rd ra imm) := by
  simp_all [NarrowRegs.Statement, Instr.WellFormed, Instr.operands]
theorem NarrowRegs.subiL (rd : Reg) (ra : Reg) (imm : Nat) : NarrowRegs.Statement (.subiL rd ra imm) := nofun
theorem NarrowRegs.asriS (rd : Reg) (ra : Reg) (sh : Nat) : NarrowRegs.Statement (.asriS rd ra sh) := by
  simp_all [NarrowRegs.Statement, Instr.WellFormed, Instr.operands]
theorem NarrowRegs.asriL (rd : Reg) (ra : Reg) (sh : Nat) : NarrowRegs.Statement (.asriL rd ra sh) := nofun
theorem NarrowRegs.lsliS (rd : Reg) (ra : Reg) (sh : Nat) : NarrowRegs.Statement (.lsliS rd ra sh) := by
  simp_all [NarrowRegs.Statement, Instr.WellFormed, Instr.operands]
theorem NarrowRegs.lsliL (rd : Reg) (ra : Reg) (sh : Nat) : NarrowRegs.Statement (.lsliL rd ra sh) := nofun
theorem NarrowRegs.lsriS (rd : Reg) (ra : Reg) (sh : Nat) : NarrowRegs.Statement (.lsriS rd ra sh) := by
  simp_all [NarrowRegs.Statement, Instr.WellFormed, Instr.operands]
theorem NarrowRegs.lsriL (rd : Reg) (ra : Reg) (sh : Nat) : NarrowRegs.Statement (.lsriL rd ra sh) := nofun
theorem NarrowRegs.moviS (rd : Reg) (imm : Nat) : NarrowRegs.Statement (.moviS rd imm) := by
  simp_all [NarrowRegs.Statement, Instr.WellFormed, Instr.operands]
theorem NarrowRegs.moviL (rd : Reg) (imm : Nat) : NarrowRegs.Statement (.moviL rd imm) := nofun
theorem NarrowRegs.addcL (rd : Reg) (ra : Reg) (rb : Reg) : NarrowRegs.Statement (.addcL rd ra rb) := nofun
theorem NarrowRegs.subcL (rd : Reg) (ra : Reg) (rb : Reg) : NarrowRegs.Statement (.subcL rd ra rb) := nofun
theorem NarrowRegs.andiL (rd : Reg) (ra : Reg) (imm : Nat) : NarrowRegs.Statement (.andiL rd ra imm) := nofun
theorem NarrowRegs.oriL (rd : Reg) (ra : Reg) (imm : Nat) : NarrowRegs.Statement (.oriL rd ra imm) := nofun
theorem NarrowRegs.xoriL (rd : Reg) (ra : Reg) (imm : Nat) : NarrowRegs.Statement (.xoriL rd ra imm) := nofun
theorem NarrowRegs.ldbS (rd : Reg) (ra : Reg) (off : Int) : NarrowRegs.Statement (.ldbS rd ra off) := by
  simp_all [NarrowRegs.Statement, Instr.WellFormed, Instr.operands]
theorem NarrowRegs.ldbL (rd : Reg) (ra : Reg) (off : Int) : NarrowRegs.Statement (.ldbL rd ra off) := nofun
theorem NarrowRegs.ldbPostincS (rd : Reg) (ra : Reg) (off : Int) : NarrowRegs.Statement (.ldbPostincS rd ra off) := by
  simp_all [NarrowRegs.Statement, Instr.WellFormed, Instr.operands]
theorem NarrowRegs.ldbPostincL (rd : Reg) (ra : Reg) (off : Int) : NarrowRegs.Statement (.ldbPostincL rd ra off) := nofun
theorem NarrowRegs.ldbPredecS (rd : Reg) (ra : Reg) (off : Int) : NarrowRegs.Statement (.ldbPredecS rd ra off) := by
  simp_all [NarrowRegs.Statement, Instr.WellFormed, Instr.operands]
theorem NarrowRegs.ldbPredecL (rd : Reg) (ra : Reg) (off : Int) : NarrowRegs.Statement (.ldbPredecL rd ra off) := nofun
theorem NarrowRegs.ldwS (rd : Reg) (ra : Reg) (off : Int) : NarrowRegs.Statement (.ldwS rd ra off) := by
  simp_all [NarrowRegs.Statement, Instr.WellFormed, Instr.operands]
theorem NarrowRegs.ldwL (rd : Reg) (ra : Reg) (off : Int) : NarrowRegs.Statement (.ldwL rd ra off) := nofun
theorem NarrowRegs.ldwPostincS (rd : Reg) (ra : Reg) (off : Int) : NarrowRegs.Statement (.ldwPostincS rd ra off) := by
  simp_all [NarrowRegs.Statement, Instr.WellFormed, Instr.operands]
theorem NarrowRegs.ldwPostincL (rd : Reg) (ra : Reg) (off : Int) : NarrowRegs.Statement (.ldwPostincL rd ra off) := nofun
theorem NarrowRegs.ldwPredecS (rd : Reg) (ra : Reg) (off : Int) : NarrowRegs.Statement (.ldwPredecS rd ra off) := by
  simp_all [NarrowRegs.Statement, Instr.WellFormed, Instr.operands]
theorem NarrowRegs.ldwPredecL (rd : Reg) (ra : Reg) (off : Int) : NarrowRegs.Statement (.ldwPredecL rd ra off) := nofun
theorem NarrowRegs.stbS (rd : Reg) (off : Int) (ra : Reg) : NarrowRegs.Statement (.stbS rd off ra) := by
  simp_all [NarrowRegs.Statement, Instr.WellFormed, Instr.operands]
theorem NarrowRegs.stbL (rd : Reg) (off : Int) (ra : Reg) : NarrowRegs.Statement (.stbL rd off ra) := nofun
theorem NarrowRegs.stbPostincS (rd : Reg) (off : Int) (ra : Reg) : NarrowRegs.Statement (.stbPostincS rd off ra) := by
  simp_all [NarrowRegs.Statement, Instr.WellFormed, Instr.operands]
theorem NarrowRegs.stbPostincL (rd : Reg) (off : Int) (ra : Reg) : NarrowRegs.Statement (.stbPostincL rd off ra) := nofun
theorem NarrowRegs.stbPredecS (rd : Reg) (off : Int) (ra : Reg) : NarrowRegs.Statement (.stbPredecS rd off ra) := by
  simp_all [NarrowRegs.Statement, Instr.WellFormed, Instr.operands]
theorem NarrowRegs.stbPredecL (rd : Reg) (off : Int) (ra : Reg) : NarrowRegs.Statement (.stbPredecL rd off ra) := nofun
theorem NarrowRegs.stwS (rd : Reg) (off : Int) (ra : Reg) : NarrowRegs.Statement (.stwS rd off ra) := by
  simp_all [NarrowRegs.Statement, Instr.WellFormed, Instr.operands]
theorem NarrowRegs.stwL (rd : Reg) (off : Int) (ra : Reg) : NarrowRegs.Statement (.stwL rd off ra) := nofun
theorem NarrowRegs.stwPostincS (rd : Reg) (off : Int) (ra : Reg) : NarrowRegs.Statement (.stwPostincS rd off ra) := by
  simp_all [NarrowRegs.Statement, Instr.WellFormed, Instr.operands]
theorem NarrowRegs.stwPostincL (rd : Reg) (off : Int) (ra : Reg) : NarrowRegs.Statement (.stwPostincL rd off ra) := nofun
theorem NarrowRegs.stwPredecS (rd : Reg) (off : Int) (ra : Reg) : NarrowRegs.Statement (.stwPredecS rd off ra) := by
  simp_all [NarrowRegs.Statement, Instr.WellFormed, Instr.operands]
theorem NarrowRegs.stwPredecL (rd : Reg) (off : Int) (ra : Reg) : NarrowRegs.Statement (.stwPredecL rd off ra) := nofun
theorem NarrowRegs.braS (off : Int) : NarrowRegs.Statement (.braS off) := by
  simp_all [NarrowRegs.Statement, Instr.WellFormed, Instr.operands]
theorem NarrowRegs.braL (off : Int) : NarrowRegs.Statement (.braL off) := nofun
theorem NarrowRegs.balS (off : Int) (rb : Reg) : NarrowRegs.Statement (.balS off rb) := by
  simp_all [NarrowRegs.Statement, Instr.WellFormed, Instr.operands]
theorem NarrowRegs.balL (off : Int) (rb : Reg) : NarrowRegs.Statement (.balL off rb) := nofun
theorem NarrowRegs.beqS (off : Int) (ra : Reg) (rb : Reg) : NarrowRegs.Statement (.beqS off ra rb) := by
  simp_all [NarrowRegs.Statement, Instr.WellFormed, Instr.operands]
theorem NarrowRegs.beqL (off : Int) (ra : Reg) (rb : Reg) : NarrowRegs.Statement (.beqL off ra rb) := nofun
theorem NarrowRegs.bneS (off : Int) (ra : Reg) (rb : Reg) : NarrowRegs.Statement (.bneS off ra rb) := by
  simp_all [NarrowRegs.Statement, Instr.WellFormed, Instr.operands]
theorem NarrowRegs.bneL (off : Int) (ra : Reg) (rb : Reg) : NarrowRegs.Statement (.bneL off ra rb) := nofun
theorem NarrowRegs.bltsS (off : Int) (ra : Reg) (rb : Reg) : NarrowRegs.Statement (.bltsS off ra rb) := by
  simp_all [NarrowRegs.Statement, Instr.WellFormed, Instr.operands]
theorem NarrowRegs.bltsL (off : Int) (ra : Reg) (rb : Reg) : NarrowRegs.Statement (.bltsL off ra rb) := nofun
theorem NarrowRegs.bgtsS (off : Int) (ra : Reg) (rb : Reg) : NarrowRegs.Statement (.bgtsS off ra rb) := by
  simp_all [NarrowRegs.Statement, Instr.WellFormed, Instr.operands]
theorem NarrowRegs.bgtsL (off : Int) (ra : Reg) (rb : Reg) : NarrowRegs.Statement (.bgtsL off ra rb) := nofun
theorem NarrowRegs.bltuS (off : Int) (ra : Reg) (rb : Reg) : NarrowRegs.Statement (.bltuS off ra rb) := by
  simp_all [NarrowRegs.Statement, Instr.WellFormed, Instr.operands]
theorem NarrowRegs.bltuL (off : Int) (ra : Reg) (rb : Reg) : NarrowRegs.Statement (.bltuL off ra rb) := nofun
theorem NarrowRegs.bgtuS (off : Int) (ra : Reg) (rb : Reg) : NarrowRegs.Statement (.bgtuS off ra rb) := by
  simp_all [NarrowRegs.Statement, Instr.WellFormed, Instr.operands]
theorem NarrowRegs.bgtuL (off : Int) (ra : Reg) (rb : Reg) : NarrowRegs.Statement (.bgtuL off ra rb) := nofun
theorem NarrowRegs.jmpS (rd : Reg) : NarrowRegs.Statement (.jmpS rd) := by
  simp_all [NarrowRegs.Statement, Instr.WellFormed, Instr.operands]
theorem NarrowRegs.jmpL (rd : Reg) : NarrowRegs.Statement (.jmpL rd) := nofun
theorem NarrowRegs.jalS (rd : Reg) (rb : Reg) : NarrowRegs.Statement (.jalS rd rb) := by
  simp_all [NarrowRegs.Statement, Instr.WellFormed, Instr.operands]
theorem NarrowRegs.jalL (rd : Reg) (rb : Reg) : NarrowRegs.Statement (.jalL rd rb) := nofun

end Sys2Proof.Laws
end

