-- ==== Sys2Proof/Tests/Slice0.lean ====
section
/-!
SUPPORT. The model's own tests: the well-formedness checks refuse what they must, a word written out from the
spec's encoding for every constructor, one step of each instruction on the vectors of
spec/95_test_vectors.md, and a witness that meets the hypotheses of each statement that has any.
-/

namespace Sys2Proof.Tests

open Sys2Proof.Machine Sys2Proof.Safety

/-! ## Well-formedness: each check refuses what lies just outside it, for every constructor that has it -/

/-- Refuses register 8 as `rd` of a short form (R57). -/
theorem wf_refuses_register_8_as_rd : ([
    .nopS 8 63, .addS 8 7 7, .subS 8 7 7, .andS 8 7 7, .orS 8 7 7, .xorS 8 7 7, .asrS 8 7 7,
    .lslS 8 7 7, .lsrS 8 7 7, .movS 8 7, .addiS 8 7 7, .subiS 8 7 7, .asriS 8 7 8, .lsliS 8 7 8,
    .lsriS 8 7 8, .moviS 8 63, .ldbS 8 7 (-4), .ldbPostincS 8 7 (-4), .ldbPredecS 8 7 (-4),
    .ldwS 8 7 (-4), .ldwPostincS 8 7 (-4), .ldwPredecS 8 7 (-4), .stbS 8 (-4) 7,
    .stbPostincS 8 (-4) 7, .stbPredecS 8 (-4) 7, .stwS 8 (-4) 7, .stwPostincS 8 (-4) 7,
    .stwPredecS 8 (-4) 7, .jmpS 8, .jalS 8 7] : List Instr).all (fun i => !i.WellFormed) = true := by decide

/-- Refuses an immediate of 2^6 in an unsigned 6-bit field (R61). -/
theorem wf_refuses_unsigned_past_6_bits : ([
    .nopS 7 64, .moviS 7 64] : List Instr).all (fun i => !i.WellFormed) = true := by decide

/-- Refuses an immediate of 2^12 in an unsigned 12-bit field (R61). -/
theorem wf_refuses_unsigned_past_12_bits : ([
    .nopL 63 4096] : List Instr).all (fun i => !i.WellFormed) = true := by decide

/-- Refuses register 8 as `ra` of a short form (R57). -/
theorem wf_refuses_register_8_as_ra : ([
    .addS 7 8 7, .subS 7 8 7, .andS 7 8 7, .orS 7 8 7, .xorS 7 8 7, .asrS 7 8 7, .lslS 7 8 7,
    .lsrS 7 8 7, .movS 7 8, .addiS 7 8 7, .subiS 7 8 7, .asriS 7 8 8, .lsliS 7 8 8, .lsriS 7 8 8,
    .ldbS 7 8 (-4), .ldbPostincS 7 8 (-4), .ldbPredecS 7 8 (-4), .ldwS 7 8 (-4),
    .ldwPostincS 7 8 (-4), .ldwPredecS 7 8 (-4), .stbS 7 (-4) 8, .stbPostincS 7 (-4) 8,
    .stbPredecS 7 (-4) 8, .stwS 7 (-4) 8, .stwPostincS 7 (-4) 8, .stwPredecS 7 (-4) 8,
    .beqS (-4) 8 7, .bneS (-4) 8 7, .bltsS (-4) 8 7, .bgtsS (-4) 8 7, .bltuS (-4) 8 7,
    .bgtuS (-4) 8 7] : List Instr).all (fun i => !i.WellFormed) = true := by decide

/-- Refuses register 8 as `rb` of a short form (R57). -/
theorem wf_refuses_register_8_as_rb : ([
    .addS 7 7 8, .subS 7 7 8, .andS 7 7 8, .orS 7 7 8, .xorS 7 7 8, .asrS 7 7 8, .lslS 7 7 8,
    .lsrS 7 7 8, .balS (-32) 8, .beqS (-4) 7 8, .bneS (-4) 7 8, .bltsS (-4) 7 8, .bgtsS (-4) 7 8,
    .bltuS (-4) 7 8, .bgtuS (-4) 7 8, .jalS 7 8] : List Instr).all (fun i => !i.WellFormed) = true := by decide

/-- Refuses an immediate of 2^3 in an unsigned 3-bit field (R61). -/
theorem wf_refuses_unsigned_past_3_bits : ([
    .addiS 7 7 8, .subiS 7 7 8] : List Instr).all (fun i => !i.WellFormed) = true := by decide

/-- Refuses an immediate of 2^10 in an unsigned 10-bit field (R61). -/
theorem wf_refuses_unsigned_past_10_bits : ([
    .addiL 63 63 1024, .subiL 63 63 1024] : List Instr).all (fun i => !i.WellFormed) = true := by decide

/-- Refuses a shift amount of 0 (R60). -/
theorem wf_refuses_shift_0 : ([
    .asriS 7 7 0, .asriL 63 63 0, .lsliS 7 7 0, .lsliL 63 63 0, .lsriS 7 7 0, .lsriL 63 63 0] : List Instr).all (fun i => !i.WellFormed) = true := by decide

/-- Refuses a shift amount above 2^3 in a 3-bit field (R60). -/
theorem wf_refuses_shift_past_3_bits : ([
    .asriS 7 7 9, .lsliS 7 7 9, .lsriS 7 7 9] : List Instr).all (fun i => !i.WellFormed) = true := by decide

/-- Refuses a shift amount above 2^6 in a 6-bit field (R60). -/
theorem wf_refuses_shift_past_6_bits : ([
    .asriL 63 63 65, .lsliL 63 63 65, .lsriL 63 63 65] : List Instr).all (fun i => !i.WellFormed) = true := by decide

/-- Refuses an immediate of 2^16 in an unsigned 16-bit field (R61). -/
theorem wf_refuses_unsigned_past_16_bits : ([
    .moviL 63 65536] : List Instr).all (fun i => !i.WellFormed) = true := by decide

/-- Refuses an immediate of 2^9 in an unsigned 9-bit field (R61). -/
theorem wf_refuses_unsigned_past_9_bits : ([
    .andiL 63 63 512, .oriL 63 63 512, .xoriL 63 63 512] : List Instr).all (fun i => !i.WellFormed) = true := by decide

/-- Refuses an offset just outside a signed 3-bit field, on either side (R58, R59). -/
theorem wf_refuses_signed_past_3_bits : ([
    .ldbS 7 7 4, .ldbS 7 7 (-5), .ldbPostincS 7 7 4, .ldbPostincS 7 7 (-5), .ldbPredecS 7 7 4,
    .ldbPredecS 7 7 (-5), .ldwS 7 7 4, .ldwS 7 7 (-5), .ldwPostincS 7 7 4, .ldwPostincS 7 7 (-5),
    .ldwPredecS 7 7 4, .ldwPredecS 7 7 (-5), .stbS 7 4 7, .stbS 7 (-5) 7, .stbPostincS 7 4 7,
    .stbPostincS 7 (-5) 7, .stbPredecS 7 4 7, .stbPredecS 7 (-5) 7, .stwS 7 4 7, .stwS 7 (-5) 7,
    .stwPostincS 7 4 7, .stwPostincS 7 (-5) 7, .stwPredecS 7 4 7, .stwPredecS 7 (-5) 7, .beqS 4 7 7,
    .beqS (-5) 7 7, .bneS 4 7 7, .bneS (-5) 7 7, .bltsS 4 7 7, .bltsS (-5) 7 7, .bgtsS 4 7 7,
    .bgtsS (-5) 7 7, .bltuS 4 7 7, .bltuS (-5) 7 7, .bgtuS 4 7 7, .bgtuS (-5) 7 7] : List Instr).all (fun i => !i.WellFormed) = true := by decide

/-- Refuses an offset just outside a signed 10-bit field, on either side (R58, R59). -/
theorem wf_refuses_signed_past_10_bits : ([
    .ldbL 63 63 512, .ldbL 63 63 (-513), .ldbPostincL 63 63 512, .ldbPostincL 63 63 (-513),
    .ldbPredecL 63 63 512, .ldbPredecL 63 63 (-513), .ldwL 63 63 512, .ldwL 63 63 (-513),
    .ldwPostincL 63 63 512, .ldwPostincL 63 63 (-513), .ldwPredecL 63 63 512,
    .ldwPredecL 63 63 (-513), .stbL 63 512 63, .stbL 63 (-513) 63, .stbPostincL 63 512 63,
    .stbPostincL 63 (-513) 63, .stbPredecL 63 512 63, .stbPredecL 63 (-513) 63, .stwL 63 512 63,
    .stwL 63 (-513) 63, .stwPostincL 63 512 63, .stwPostincL 63 (-513) 63, .stwPredecL 63 512 63,
    .stwPredecL 63 (-513) 63, .beqL 512 63 63, .beqL (-513) 63 63, .bneL 512 63 63,
    .bneL (-513) 63 63, .bltsL 512 63 63, .bltsL (-513) 63 63, .bgtsL 512 63 63,
    .bgtsL (-513) 63 63, .bltuL 512 63 63, .bltuL (-513) 63 63, .bgtuL 512 63 63,
    .bgtuL (-513) 63 63] : List Instr).all (fun i => !i.WellFormed) = true := by decide

/-- Refuses an offset just outside a signed 9-bit field, on either side (R58, R59). -/
theorem wf_refuses_signed_past_9_bits : ([
    .braS 256, .braS (-257)] : List Instr).all (fun i => !i.WellFormed) = true := by decide

/-- Refuses an offset just outside a signed 22-bit field, on either side (R58, R59). -/
theorem wf_refuses_signed_past_22_bits : ([
    .braL 2097152, .braL (-2097153)] : List Instr).all (fun i => !i.WellFormed) = true := by decide

/-- Refuses an offset just outside a signed 6-bit field, on either side (R58, R59). -/
theorem wf_refuses_signed_past_6_bits : ([
    .balS 32 7, .balS (-33) 7] : List Instr).all (fun i => !i.WellFormed) = true := by decide

/-- Refuses an offset just outside a signed 16-bit field, on either side (R58, R59). -/
theorem wf_refuses_signed_past_16_bits : ([
    .balL 32768 63, .balL (-32769) 63] : List Instr).all (fun i => !i.WellFormed) = true := by decide

/-- Accepts every operand at the edge of its field: short forms. -/
theorem wf_accepts_edges_short : ([
    .nopS 7 63, .addS 7 7 7, .subS 7 7 7, .andS 7 7 7, .orS 7 7 7, .xorS 7 7 7, .asrS 7 7 7,
    .lslS 7 7 7, .lsrS 7 7 7, .movS 7 7, .addiS 7 7 7, .subiS 7 7 7, .asriS 7 7 8, .lsliS 7 7 8,
    .lsriS 7 7 8, .moviS 7 63, .ldbS 7 7 (-4), .ldbPostincS 7 7 (-4), .ldbPredecS 7 7 (-4),
    .ldwS 7 7 (-4), .ldwPostincS 7 7 (-4), .ldwPredecS 7 7 (-4), .stbS 7 (-4) 7,
    .stbPostincS 7 (-4) 7, .stbPredecS 7 (-4) 7, .stwS 7 (-4) 7, .stwPostincS 7 (-4) 7,
    .stwPredecS 7 (-4) 7, .braS (-256), .balS (-32) 7, .beqS (-4) 7 7, .bneS (-4) 7 7,
    .bltsS (-4) 7 7, .bgtsS (-4) 7 7, .bltuS (-4) 7 7, .bgtuS (-4) 7 7, .jmpS 7, .jalS 7 7] : List Instr).all Instr.WellFormed = true := by decide

/-- Accepts every operand at the edge of its field: long forms. -/
theorem wf_accepts_edges_long : ([
    .nopL 63 4095, .addL 63 63 63, .subL 63 63 63, .andL 63 63 63, .orL 63 63 63, .xorL 63 63 63,
    .asrL 63 63 63, .lslL 63 63 63, .lsrL 63 63 63, .movL 63 63, .addiL 63 63 1023,
    .subiL 63 63 1023, .asriL 63 63 64, .lsliL 63 63 64, .lsriL 63 63 64, .moviL 63 65535,
    .addcL 63 63 63, .subcL 63 63 63, .andiL 63 63 511, .oriL 63 63 511, .xoriL 63 63 511,
    .ldbL 63 63 (-512), .ldbPostincL 63 63 (-512), .ldbPredecL 63 63 (-512), .ldwL 63 63 (-512),
    .ldwPostincL 63 63 (-512), .ldwPredecL 63 63 (-512), .stbL 63 (-512) 63,
    .stbPostincL 63 (-512) 63, .stbPredecL 63 (-512) 63, .stwL 63 (-512) 63,
    .stwPostincL 63 (-512) 63, .stwPredecL 63 (-512) 63, .braL (-2097152), .balL (-32768) 63,
    .beqL (-512) 63 63, .bneL (-512) 63 63, .bltsL (-512) 63 63, .bgtsL (-512) 63 63,
    .bltuL (-512) 63 63, .bgtuL (-512) 63 63, .jmpL 63, .jalL 63 63] : List Instr).all Instr.WellFormed = true := by decide

/-! ## Decoding: a word for every constructor, written out bit by bit from the formats (30_encoding.md R63 to
R67), the underscores at the field boundaries -/

theorem decode_nop :
    decodeTableWord 16 0b0_00_0000_011_110_011 = some (.nopS 3 51) ∧
    decodeTableWord 32 0b0_00_0000_001_101_100_1_00_0000_010_111_010 = some (.nopL 10 2874) := by
  decide

theorem decode_add :
    decodeTableWord 16 0b0_00_0001_101_110_011 = some (.addS 5 6 3) ∧
    decodeTableWord 32 0b0_00_0000_101_001_111_1_00_0001_000_001_111 = some (.addL 40 9 63) := by
  decide

theorem decode_sub :
    decodeTableWord 16 0b0_00_0010_011_101_110 = some (.subS 3 5 6) ∧
    decodeTableWord 32 0b0_00_0000_100_101_011_1_00_0010_001_110_101 = some (.subL 33 46 29) := by
  decide

theorem decode_and :
    decodeTableWord 16 0b0_00_0011_101_110_011 = some (.andS 5 6 3) ∧
    decodeTableWord 32 0b0_00_0000_101_001_111_1_00_0011_000_001_111 = some (.andL 40 9 63) := by
  decide

theorem decode_or :
    decodeTableWord 16 0b0_00_0100_011_101_110 = some (.orS 3 5 6) ∧
    decodeTableWord 32 0b0_00_0000_001_110_010_1_00_0100_010_101_100 = some (.orL 10 53 20) := by
  decide

theorem decode_xor :
    decodeTableWord 16 0b0_00_0101_101_110_011 = some (.xorS 5 6 3) ∧
    decodeTableWord 32 0b0_00_0000_101_001_111_1_00_0101_000_001_111 = some (.xorL 40 9 63) := by
  decide

theorem decode_asr :
    decodeTableWord 16 0b0_00_0110_001_010_011 = some (.asrS 1 2 3) ∧
    decodeTableWord 32 0b0_00_0000_100_101_011_1_00_0110_001_110_101 = some (.asrL 33 46 29) := by
  decide

theorem decode_lsl :
    decodeTableWord 16 0b0_00_0111_011_101_110 = some (.lslS 3 5 6) ∧
    decodeTableWord 32 0b0_00_0000_001_110_010_1_00_0111_010_101_100 = some (.lslL 10 53 20) := by
  decide

theorem decode_lsr :
    decodeTableWord 16 0b0_00_1000_101_110_011 = some (.lsrS 5 6 3) ∧
    decodeTableWord 32 0b0_00_0000_100_101_011_1_00_1000_001_110_101 = some (.lsrL 33 46 29) := by
  decide

theorem decode_mov :
    decodeTableWord 16 0b0_00_1001_001_010_000 = some (.movS 1 2) ∧
    decodeTableWord 32 0b0_00_0000_100_101_000_1_00_1001_001_110_000 = some (.movL 33 46) := by
  decide

theorem decode_addi :
    decodeTableWord 16 0b0_00_1010_001_010_010 = some (.addiS 1 2 2) ∧
    decodeTableWord 32 0b0_00_0111_101_001_000_1_00_1010_000_001_010 = some (.addiL 40 9 450) := by
  decide

theorem decode_subi :
    decodeTableWord 16 0b0_00_1011_101_110_110 = some (.subiS 5 6 6) ∧
    decodeTableWord 32 0b0_00_1011_101_001_011_1_00_1011_000_001_011 = some (.subiL 40 9 731) := by
  decide

theorem decode_asri :
    decodeTableWord 16 0b0_00_1100_110_001_100 = some (.asriS 6 1 5) ∧
    decodeTableWord 32 0b0_00_0000_100_101_110_1_00_1100_001_110_110 = some (.asriL 33 46 55) := by
  decide

theorem decode_lsli :
    decodeTableWord 16 0b0_00_1101_101_110_101 = some (.lsliS 5 6 6) ∧
    decodeTableWord 32 0b0_00_0000_101_001_101_1_00_1101_000_001_001 = some (.lsliL 40 9 42) := by
  decide

theorem decode_lsri :
    decodeTableWord 16 0b0_00_1110_110_001_100 = some (.lsriS 6 1 5) ∧
    decodeTableWord 32 0b0_00_0000_101_001_101_1_00_1110_000_001_011 = some (.lsriL 40 9 44) := by
  decide

theorem decode_movi :
    decodeTableWord 16 0b0_00_1111_001_101_101 = some (.moviS 1 45) ∧
    decodeTableWord 32 0b0_00_1000_100_011_100_1_00_1111_001_110_101 = some (.moviL 33 34613) := by
  decide

theorem decode_addc :
    decodeTableWord 32 0b0_00_0001_001_110_010_1_00_0001_010_101_100 = some (.addcL 10 53 20) := by
  decide

theorem decode_subc :
    decodeTableWord 32 0b0_00_0001_100_101_011_1_00_0010_001_110_101 = some (.subcL 33 46 29) := by
  decide

theorem decode_andi :
    decodeTableWord 32 0b0_00_1111_101_001_101_1_00_0011_000_001_010 = some (.andiL 40 9 490) := by
  decide

theorem decode_ori :
    decodeTableWord 32 0b0_00_1001_001_110_100_1_00_0100_010_101_001 = some (.oriL 10 53 289) := by
  decide

theorem decode_xori :
    decodeTableWord 32 0b0_00_1101_101_001_000_1_00_0101_000_001_110 = some (.xoriL 40 9 390) := by
  decide

theorem decode_ldb :
    decodeTableWord 16 0b0_01_0000_110_001_111 = some (.ldbS 6 1 (-1)) ∧
    decodeTableWord 32 0b0_00_1011_101_001_011_1_01_0000_000_001_111 = some (.ldbL 40 9 (-289)) := by
  decide

theorem decode_ldbPostinc :
    decodeTableWord 16 0b0_01_0001_001_010_110 = some (.ldbPostincS 1 2 (-2)) ∧
    decodeTableWord 32 0b0_00_1001_101_001_001_1_01_0001_000_001_110 = some (.ldbPostincL 40 9 (-434)) := by
  decide

theorem decode_ldbPredec :
    decodeTableWord 16 0b0_01_0010_110_001_110 = some (.ldbPredecS 6 1 (-2)) ∧
    decodeTableWord 32 0b0_00_1000_101_001_010_1_01_0010_000_001_101 = some (.ldbPredecL 40 9 (-491)) := by
  decide

theorem decode_ldw :
    decodeTableWord 16 0b0_01_0100_001_010_101 = some (.ldwS 1 2 (-3)) ∧
    decodeTableWord 32 0b0_00_1110_101_001_010_1_01_0100_000_001_010 = some (.ldwL 40 9 (-110)) := by
  decide

theorem decode_ldwPostinc :
    decodeTableWord 16 0b0_01_0101_101_110_111 = some (.ldwPostincS 5 6 (-1)) ∧
    decodeTableWord 32 0b0_00_1100_001_110_111_1_01_0101_010_101_111 = some (.ldwPostincL 10 53 (-193)) := by
  decide

theorem decode_ldwPredec :
    decodeTableWord 16 0b0_01_0110_011_101_110 = some (.ldwPredecS 3 5 (-2)) ∧
    decodeTableWord 32 0b0_00_1011_101_001_011_1_01_0110_000_001_110 = some (.ldwPredecL 40 9 (-290)) := by
  decide

theorem decode_stb :
    decodeTableWord 16 0b0_01_1000_101_110_101 = some (.stbS 5 (-3) 6) ∧
    decodeTableWord 32 0b0_00_1101_001_110_010_1_01_1000_010_101_011 = some (.stbL 10 (-173) 53) := by
  decide

theorem decode_stbPostinc :
    decodeTableWord 16 0b0_01_1001_001_010_110 = some (.stbPostincS 1 (-2) 2) ∧
    decodeTableWord 32 0b0_00_1111_001_110_111_1_01_1001_010_101_000 = some (.stbPostincL 10 (-8) 53) := by
  decide

theorem decode_stbPredec :
    decodeTableWord 16 0b0_01_1010_011_101_111 = some (.stbPredecS 3 (-1) 5) ∧
    decodeTableWord 32 0b0_00_1110_101_001_000_1_01_1010_000_001_001 = some (.stbPredecL 40 (-127) 9) := by
  decide

theorem decode_stw :
    decodeTableWord 16 0b0_01_1100_001_010_111 = some (.stwS 1 (-1) 2) ∧
    decodeTableWord 32 0b0_00_1100_101_001_010_1_01_1100_000_001_001 = some (.stwL 40 (-239) 9) := by
  decide

theorem decode_stwPostinc :
    decodeTableWord 16 0b0_01_1101_011_101_111 = some (.stwPostincS 3 (-1) 5) ∧
    decodeTableWord 32 0b0_00_1011_100_101_100_1_01_1101_001_110_001 = some (.stwPostincL 33 (-287) 46) := by
  decide

theorem decode_stwPredec :
    decodeTableWord 16 0b0_01_1110_101_110_110 = some (.stwPredecS 5 (-2) 6) ∧
    decodeTableWord 32 0b0_00_1110_100_101_011_1_01_1110_001_110_110 = some (.stwPredecL 33 (-98) 46) := by
  decide

theorem decode_bra :
    decodeTableWord 16 0b0_10_0000_110_010_100 = some (.braS (-108)) ∧
    decodeTableWord 32 0b0_00_1100_111_011_100_1_10_0000_001_001_110 = some (.braL (-804786)) := by
  decide

theorem decode_bal :
    decodeTableWord 16 0b0_10_0001_110_011_001 = some (.balS (-13) 1) ∧
    decodeTableWord 32 0b0_00_1000_000_101_001_1_10_0001_000_101_010 = some (.balL (-32443) 10) := by
  decide

theorem decode_beq :
    decodeTableWord 16 0b0_10_0010_111_101_110 = some (.beqS (-1) 5 6) ∧
    decodeTableWord 32 0b0_00_1001_000_001_110_1_10_0010_101_010_101 = some (.beqL (-443) 10 53) := by
  decide

theorem decode_bne :
    decodeTableWord 16 0b0_10_0011_111_110_001 = some (.bneS (-1) 6 1) ∧
    decodeTableWord 32 0b0_00_1110_100_101_001_1_10_0011_000_000_001 = some (.bneL (-96) 40 9) := by
  decide

theorem decode_blts :
    decodeTableWord 16 0b0_10_0100_101_011_101 = some (.bltsS (-3) 3 5) ∧
    decodeTableWord 32 0b0_00_1011_011_100_101_1_10_0100_000_001_110 = some (.bltsL (-296) 33 46) := by
  decide

theorem decode_bgts :
    decodeTableWord 16 0b0_10_0101_111_001_010 = some (.bgtsS (-1) 1 2) ∧
    decodeTableWord 32 0b0_00_1110_010_101_001_1_10_0101_010_000_001 = some (.bgtsL (-110) 40 9) := by
  decide

theorem decode_bltu :
    decodeTableWord 16 0b0_10_0110_110_011_101 = some (.bltuS (-2) 3 5) ∧
    decodeTableWord 32 0b0_00_1001_110_101_001_1_10_0110_100_000_001 = some (.bltuL (-396) 40 9) := by
  decide

theorem decode_bgtu :
    decodeTableWord 16 0b0_10_0111_110_110_001 = some (.bgtuS (-2) 6 1) ∧
    decodeTableWord 32 0b0_00_1111_011_001_110_1_10_0111_010_010_101 = some (.bgtuL (-38) 10 53) := by
  decide

theorem decode_jmp :
    decodeTableWord 16 0b0_10_1000_001_000_000 = some (.jmpS 1) ∧
    decodeTableWord 32 0b0_00_0000_101_000_000_1_10_1000_000_000_000 = some (.jmpL 40) := by
  decide

theorem decode_jal :
    decodeTableWord 16 0b0_10_1001_101_000_110 = some (.jalS 5 6) ∧
    decodeTableWord 32 0b0_00_0000_100_000_101_1_10_1001_001_000_110 = some (.jalL 33 46) := by
  decide

/-- The decoder's failures and their sizes (95_test_vectors.md, decoder outcomes). -/
theorem decode_failures :
    decode [] = .failure .fewerThanTwoBytes ∧ decode [0x53] = .failure .fewerThanTwoBytes ∧
    decode [0x00, 0x60] = .failure .fewerThanFourBytes ∧ decode [0x0F, 0x82, 0x4F] = .failure .fewerThanFourBytes ∧
    decode [0x00, 0x60, 0x00, 0x00] = .failure .noEncodingMatches ∧
    decode [0x0F, 0x82, 0x4F, 0x81] = .failure .noEncodingMatches ∧
    DecodeFailure.size .fewerThanTwoBytes = .size0 ∧ DecodeFailure.size .fewerThanFourBytes = .size0 ∧
    DecodeFailure.size .noEncodingMatches = .size2 := by
  decide

/-- Reserved and unused bits are refused (95_test_vectors.md, decoder outcomes). -/
theorem decode_reserved :
    ([[0x53, 0x82, 0x00, 0x20], [0x53, 0x82, 0x00, 0x04], [0x53, 0x86, 0x00, 0x04], [0xC1, 0x13, 0x00, 0x00],
      [0x50, 0x92, 0x01, 0x00], [0x00, 0x26, 0x00, 0x00], [0x00, 0xA6, 0x00, 0x00], [0x00, 0x54, 0x00, 0x00],
      [0x00, 0xD4, 0x00, 0x00], [0x41, 0x50, 0x00, 0x00], [0x48, 0x52, 0x00, 0x00], [0x53, 0xE2, 0x00, 0x00],
      [0xFF, 0x7F, 0xFF, 0xFF]] : List (List Byte)).all
      (fun bytes => decode bytes = .failure .noEncodingMatches) = true := by
  decide

/-- A short match is taken first and with size 2, whatever follows (95_test_vectors.md). -/
theorem decode_sizes :
    decode [0x53, 0x02, 0xFF, 0xFF] = .success (.addS 1 2 3) 2 ∧
    decode [0x0F, 0x82, 0x4F, 0x01, 0xFF] = .success (.addL 40 9 63) 4 := by
  decide

/-! ## One step of each instruction: rows of spec/95_test_vectors.md part 2

The instruction stands at the pc; a test looks at the registers, the flag, the bytes, the pc and the status
that its row names. -/

/-- A state at `pc` with the flag, some registers, some data bytes and the code bytes at the pc. -/
def start (pc : Word) (v : Bool) (regs : List (Reg × Word)) (data : List (Word × Byte)) (code : List Byte) : State :=
  let s := { State.reset with pc := pc, v := v, exitCode := 0x5555 }
  let s := regs.foldl (fun s p => s.writeReg p.1 p.2) s
  (data.foldl (fun s p => s.writeData p.1 p.2) s).placeAtPc code

/-- The step answers a next state of which `p` holds. -/
def stepGives (s : State) (p : State → Bool) : Bool :=
  match step s with
  | .next t => p t
  | .fault _ => false
  | .refused _ => false

/-- `nop.l $r63, 0` -/
theorem test_nop_breakpoint : stepGives (start 0x0100 false [] [] [0xC0, 0x81, 0xC0, 0x01])
    (fun t => t.pc = 0x0102 ∧ t.status = .breakpoint) = true := by
  decide

/-- `nop.l $r40, 2` -/
theorem test_nop_quit : stepGives (start 0x0100 false [(40, 0xBEEF)] [] [0x02, 0x80, 0x40, 0x01])
    (fun t => t.getExitCode = some 0xBEEF ∧ t.pc = 0x0102 ∧ t.status = .quit) = true := by
  decide

/-- `nop $r1, 3` -/
theorem test_nop_stdout_low_byte : stepGives (start 0x0100 false [(1, 0x4241)] [] [0x43, 0x00])
    (fun t => t.stdout = [0x41] ∧ t.pc = 0x0101 ∧ t.status = .ok) = true := by
  decide

/-- `nop $r1, 4` -/
theorem test_nop_stderr_low_byte : stepGives (start 0x0100 false [(1, 0x0142)] [] [0x44, 0x00])
    (fun t => t.stderr = [0x42] ∧ t.pc = 0x0101 ∧ t.status = .ok) = true := by
  decide

/-- `mov $r1, $r2` -/
theorem test_mov : stepGives (start 0x0100 false [(2, 0xABCD)] [] [0x50, 0x12])
    (fun t => t.readReg 1 = 0xABCD ∧ t.pc = 0x0101 ∧ t.status = .ok) = true := by
  decide

/-- `mov.l $r63, $r8` -/
theorem test_mov_long_keeps_v : stepGives (start 0x0100 true [(8, 0x8000)] [] [0xC0, 0x93, 0xC8, 0x01])
    (fun t => t.readReg 63 = 0x8000 ∧ t.v = true ∧ t.pc = 0x0102 ∧ t.status = .ok) = true := by
  decide

/-- `movi $r2, 63` -/
theorem test_movi : stepGives (start 0x0100 false [] [] [0xBF, 0x1E])
    (fun t => t.readReg 2 = 0x003F ∧ t.pc = 0x0101 ∧ t.status = .ok) = true := by
  decide

/-- `movi.l $r12, 0xFFFF` -/
theorem test_movi_long : stepGives (start 0x0100 false [] [] [0x3F, 0x9F, 0x7F, 0x1E])
    (fun t => t.readReg 12 = 0xFFFF ∧ t.pc = 0x0102 ∧ t.status = .ok) = true := by
  decide

/-- `add $r1, $r2, $r3` -/
theorem test_add_wraps_and_overflows : stepGives (start 0x0100 false [(2, 0x8000), (3, 0x8000)] [] [0x53, 0x02])
    (fun t => t.readReg 1 = 0x0000 ∧ t.v = true ∧ t.pc = 0x0101 ∧ t.status = .ok) = true := by
  decide

/-- `add.l $r63, $r32, $r9` -/
theorem test_add_long : stepGives (start 0x0100 false [(32, 0x7000), (9, 0x1000)] [] [0xC1, 0x83, 0xE1, 0x01])
    (fun t => t.readReg 63 = 0x8000 ∧ t.v = true ∧ t.pc = 0x0102 ∧ t.status = .ok) = true := by
  decide

/-- `addi $r1, $r2, 7` -/
theorem test_addi : stepGives (start 0x0100 false [(2, 0xFFFF)] [] [0x57, 0x14])
    (fun t => t.readReg 1 = 0x0006 ∧ t.v = false ∧ t.pc = 0x0101 ∧ t.status = .ok) = true := by
  decide

/-- `addi.l $r1, $r2, 1023` -/
theorem test_addi_long_zero_extends : stepGives (start 0x0100 false [(2, 0x7C01)] [] [0x57, 0x94, 0x07, 0x1E])
    (fun t => t.readReg 1 = 0x8000 ∧ t.v = true ∧ t.pc = 0x0102 ∧ t.status = .ok) = true := by
  decide

/-- `addc.l $r1, $r2, $r3` -/
theorem test_addc_uses_v : stepGives (start 0x0100 true [(2, 0xFFFF), (3, 0x0000)] [] [0x53, 0x82, 0x00, 0x02])
    (fun t => t.readReg 1 = 0x0000 ∧ t.v = false ∧ t.pc = 0x0102 ∧ t.status = .ok) = true := by
  decide

/-- `addc.l $r1, $r2, $r3` -/
theorem test_addc_sum_of_three : stepGives (start 0x0100 true [(2, 0x8000), (3, 0xFFFF)] [] [0x53, 0x82, 0x00, 0x02])
    (fun t => t.readReg 1 = 0x8000 ∧ t.v = false ∧ t.pc = 0x0102 ∧ t.status = .ok) = true := by
  decide

/-- `sub $r1, $r2, $r3` -/
theorem test_sub_overflows : stepGives (start 0x0100 false [(2, 0x0000), (3, 0x8000)] [] [0x53, 0x04])
    (fun t => t.readReg 1 = 0x8000 ∧ t.v = true ∧ t.pc = 0x0101 ∧ t.status = .ok) = true := by
  decide

/-- `sub $r1, $r1, $r1` -/
theorem test_sub_same_register : stepGives (start 0x0100 true [(1, 0x1234)] [] [0x49, 0x04])
    (fun t => t.readReg 1 = 0x0000 ∧ t.v = false ∧ t.pc = 0x0101 ∧ t.status = .ok) = true := by
  decide

/-- `subi $r1, $r2, 1` -/
theorem test_subi : stepGives (start 0x0100 false [(2, 0x8000)] [] [0x51, 0x16])
    (fun t => t.readReg 1 = 0x7FFF ∧ t.v = true ∧ t.pc = 0x0101 ∧ t.status = .ok) = true := by
  decide

/-- `subi.l $r1, $r2, 1023` -/
theorem test_subi_long : stepGives (start 0x0100 false [(2, 0x83FE)] [] [0x57, 0x96, 0x07, 0x1E])
    (fun t => t.readReg 1 = 0x7FFF ∧ t.v = true ∧ t.pc = 0x0102 ∧ t.status = .ok) = true := by
  decide

/-- `subc.l $r1, $r2, $r3` -/
theorem test_subc_uses_v : stepGives (start 0x0100 true [(2, 0x8000), (3, 0x0000)] [] [0x53, 0x84, 0x00, 0x02])
    (fun t => t.readReg 1 = 0x7FFF ∧ t.v = true ∧ t.pc = 0x0102 ∧ t.status = .ok) = true := by
  decide

/-- `subc.l $r1, $r2, $r3` -/
theorem test_subc_no_overflow : stepGives (start 0x0100 true [(2, 0x7FFF), (3, 0xFFFF)] [] [0x53, 0x84, 0x00, 0x02])
    (fun t => t.readReg 1 = 0x7FFF ∧ t.v = false ∧ t.pc = 0x0102 ∧ t.status = .ok) = true := by
  decide

/-- `and $r1, $r2, $r3` -/
theorem test_and_keeps_v : stepGives (start 0x0100 true [(2, 0xFFFF), (3, 0x0F0F)] [] [0x53, 0x06])
    (fun t => t.readReg 1 = 0x0F0F ∧ t.v = true ∧ t.pc = 0x0101 ∧ t.status = .ok) = true := by
  decide

/-- `and.l $r10, $r20, $r30` -/
theorem test_and_long : stepGives (start 0x0100 false [(20, 0xAAAA), (30, 0xFF00)] [] [0xA6, 0x86, 0x53, 0x00])
    (fun t => t.readReg 10 = 0xAA00 ∧ t.pc = 0x0102 ∧ t.status = .ok) = true := by
  decide

/-- `or $r1, $r2, $r3` -/
theorem test_or : stepGives (start 0x0100 false [(2, 0x8001), (3, 0x0F0F)] [] [0x53, 0x08])
    (fun t => t.readReg 1 = 0x8F0F ∧ t.pc = 0x0101 ∧ t.status = .ok) = true := by
  decide

/-- `or.l $r63, $r0, $r62` -/
theorem test_or_long : stepGives (start 0x0100 false [(0, 0x00F0), (62, 0x0F00)] [] [0xC6, 0x89, 0xC7, 0x01])
    (fun t => t.readReg 63 = 0x0FF0 ∧ t.pc = 0x0102 ∧ t.status = .ok) = true := by
  decide

/-- `xor $r1, $r1, $r1` -/
theorem test_xor_same_register : stepGives (start 0x0100 true [(1, 0xDEAD)] [] [0x49, 0x0A])
    (fun t => t.readReg 1 = 0x0000 ∧ t.v = true ∧ t.pc = 0x0101 ∧ t.status = .ok) = true := by
  decide

/-- `xor.l $r8, $r8, $r9` -/
theorem test_xor_long : stepGives (start 0x0100 false [(8, 0x1234), (9, 0xFFFF)] [] [0x01, 0x8A, 0x49, 0x00])
    (fun t => t.readReg 8 = 0xEDCB ∧ t.pc = 0x0102 ∧ t.status = .ok) = true := by
  decide

/-- `andi $r1, $r2, 0x1FF` -/
theorem test_andi : stepGives (start 0x0100 false [(2, 0xFFFF)] [] [0x57, 0x86, 0x07, 0x1E])
    (fun t => t.readReg 1 = 0x01FF ∧ t.pc = 0x0102 ∧ t.status = .ok) = true := by
  decide

/-- `ori $r1, $r2, 0x1FF` -/
theorem test_ori : stepGives (start 0x0100 false [(2, 0x8000)] [] [0x57, 0x88, 0x07, 0x1E])
    (fun t => t.readReg 1 = 0x81FF ∧ t.pc = 0x0102 ∧ t.status = .ok) = true := by
  decide

/-- `xori $r40, $r41, 0x1FF` -/
theorem test_xori : stepGives (start 0x0100 true [(41, 0xFFFF)] [] [0x0F, 0x8A, 0x6F, 0x1F])
    (fun t => t.readReg 40 = 0xFE00 ∧ t.v = true ∧ t.pc = 0x0102 ∧ t.status = .ok) = true := by
  decide

/-- `asr $r1, $r2, $r3` -/
theorem test_asr_masks_amount : stepGives (start 0x0100 false [(2, 0x8001), (3, 0xFFFF)] [] [0x53, 0x0C])
    (fun t => t.readReg 1 = 0xFFFF ∧ t.pc = 0x0101 ∧ t.status = .ok) = true := by
  decide

/-- `asr $r1, $r1, $r1` -/
theorem test_asr_same_register : stepGives (start 0x0100 true [(1, 0x8003)] [] [0x49, 0x0C])
    (fun t => t.readReg 1 = 0xF000 ∧ t.v = true ∧ t.pc = 0x0101 ∧ t.status = .ok) = true := by
  decide

/-- `lsl $r1, $r2, $r3` -/
theorem test_lsl_15 : stepGives (start 0x0100 false [(2, 0x8001), (3, 0x000F)] [] [0x53, 0x0E])
    (fun t => t.readReg 1 = 0x8000 ∧ t.pc = 0x0101 ∧ t.status = .ok) = true := by
  decide

/-- `lsl.l $r33, $r34, $r35` -/
theorem test_lsl_long : stepGives (start 0x0100 false [(34, 0x0001), (35, 0x000F)] [] [0x53, 0x8E, 0x24, 0x01])
    (fun t => t.readReg 33 = 0x8000 ∧ t.pc = 0x0102 ∧ t.status = .ok) = true := by
  decide

/-- `lsr $r1, $r2, $r3` -/
theorem test_lsr_16_is_0 : stepGives (start 0x0100 false [(2, 0x8001), (3, 0x0010)] [] [0x53, 0x10])
    (fun t => t.readReg 1 = 0x8001 ∧ t.pc = 0x0101 ∧ t.status = .ok) = true := by
  decide

/-- `lsr $r1, $r2, $r3` -/
theorem test_lsr_fills_zero : stepGives (start 0x0100 false [(2, 0x8001), (3, 0x0001)] [] [0x53, 0x10])
    (fun t => t.readReg 1 = 0x4000 ∧ t.pc = 0x0101 ∧ t.status = .ok) = true := by
  decide

/-- `asri $r1, $r2, 8` -/
theorem test_asri : stepGives (start 0x0100 false [(2, 0x8001)] [] [0x57, 0x18])
    (fun t => t.readReg 1 = 0xFF80 ∧ t.pc = 0x0101 ∧ t.status = .ok) = true := by
  decide

/-- `asri.l $r1, $r2, 16` -/
theorem test_asri_long_16_is_0 : stepGives (start 0x0100 false [(2, 0x8001)] [] [0x57, 0x98, 0x01, 0x00])
    (fun t => t.readReg 1 = 0x8001 ∧ t.pc = 0x0102 ∧ t.status = .ok) = true := by
  decide

/-- `lsli $r1, $r2, 1` -/
theorem test_lsli : stepGives (start 0x0100 false [(2, 0x8001)] [] [0x50, 0x1A])
    (fun t => t.readReg 1 = 0x0002 ∧ t.pc = 0x0101 ∧ t.status = .ok) = true := by
  decide

/-- `lsli.l $r1, $r2, 17` -/
theorem test_lsli_long_17_is_1 : stepGives (start 0x0100 false [(2, 0x8001)] [] [0x50, 0x9A, 0x02, 0x00])
    (fun t => t.readReg 1 = 0x0002 ∧ t.pc = 0x0102 ∧ t.status = .ok) = true := by
  decide

/-- `lsri $r1, $r2, 8` -/
theorem test_lsri : stepGives (start 0x0100 false [(2, 0x8001)] [] [0x57, 0x1C])
    (fun t => t.readReg 1 = 0x0080 ∧ t.pc = 0x0101 ∧ t.status = .ok) = true := by
  decide

/-- `lsri.l $r1, $r2, 64` -/
theorem test_lsri_long_64_is_0 : stepGives (start 0x0100 false [(2, 0x8001)] [] [0x57, 0x9C, 0x07, 0x00])
    (fun t => t.readReg 1 = 0x8001 ∧ t.pc = 0x0102 ∧ t.status = .ok) = true := by
  decide

/-- `ldb $r1, [$r2, -1]` -/
theorem test_ldb_zero_extends : stepGives (start 0x0100 false [(2, 0x0100)] [(0x00FE, 0x7F), (0x00FF, 0x80), (0x0100, 0x34), (0x0101, 0x92)] [0x57, 0x20])
    (fun t => t.readReg 1 = 0x0080 ∧ t.pc = 0x0101 ∧ t.status = .ok) = true := by
  decide

/-- `ldb.l $r40, [$r41, -512]` -/
theorem test_ldb_long : stepGives (start 0x0100 false [(41, 0x0300)] [(0x0100, 0x34)] [0x08, 0xA0, 0x68, 0x11])
    (fun t => t.readReg 40 = 0x0034 ∧ t.pc = 0x0102 ∧ t.status = .ok) = true := by
  decide

/-- `ldw $r1, [$r2, 3]` -/
theorem test_ldw_wraps : stepGives (start 0x0100 false [(2, 0xFFFC)] [(0xFFFF, 0xCD), (0x0000, 0xAB)] [0x53, 0x28])
    (fun t => t.readReg 1 = 0xABCD ∧ t.pc = 0x0101 ∧ t.status = .ok) = true := by
  decide

/-- `ldw.l $r63, [$r62, 511]` -/
theorem test_ldw_long : stepGives (start 0x0100 false [(62, 0x0001)] [(0x0200, 0x11), (0x0201, 0x22)] [0xF7, 0xA9, 0xFF, 0x0F])
    (fun t => t.readReg 63 = 0x2211 ∧ t.pc = 0x0102 ∧ t.status = .ok) = true := by
  decide

/-- `ldb $r1, [$r2+, -1]` -/
theorem test_ldb_postinc : stepGives (start 0x0100 false [(2, 0xFFFF)] [(0xFFFE, 0x5A)] [0x57, 0x22])
    (fun t => t.readReg 1 = 0x005A ∧ t.readReg 2 = 0x0000 ∧ t.pc = 0x0101 ∧ t.status = .ok) = true := by
  decide

/-- `ldw $r1, [$r2+, -2]` -/
theorem test_ldw_postinc : stepGives (start 0x0100 false [(2, 0x0100)] [(0x00FE, 0x7F), (0x00FF, 0x80), (0x0100, 0x34), (0x0101, 0x92)] [0x56, 0x2A])
    (fun t => t.readReg 1 = 0x807F ∧ t.readReg 2 = 0x0102 ∧ t.pc = 0x0101 ∧ t.status = .ok) = true := by
  decide

/-- `ldw.l $r10, [$r11+, 100]` -/
theorem test_ldw_postinc_long : stepGives (start 0x0100 false [(11, 0x009C)] [(0x00FE, 0x7F), (0x00FF, 0x80), (0x0100, 0x34), (0x0101, 0x92)] [0x9C, 0xAA, 0x4C, 0x02])
    (fun t => t.readReg 10 = 0x9234 ∧ t.readReg 11 = 0x009E ∧ t.pc = 0x0102 ∧ t.status = .ok) = true := by
  decide

/-- `ldb $r1, [-$r2, 0]` -/
theorem test_ldb_predec_wraps : stepGives (start 0x0100 false [(2, 0x0000)] [(0xFFFF, 0x77)] [0x50, 0x24])
    (fun t => t.readReg 1 = 0x0077 ∧ t.readReg 2 = 0xFFFF ∧ t.pc = 0x0101 ∧ t.status = .ok) = true := by
  decide

/-- `ldw $r1, [-$r2, 1]` -/
theorem test_ldw_predec : stepGives (start 0x0100 false [(2, 0x0101)] [(0x00FE, 0x7F), (0x00FF, 0x80), (0x0100, 0x34), (0x0101, 0x92)] [0x51, 0x2C])
    (fun t => t.readReg 1 = 0x9234 ∧ t.readReg 2 = 0x00FF ∧ t.pc = 0x0101 ∧ t.status = .ok) = true := by
  decide

/-- `ldw $r2, [-$r2, 0]` -/
theorem test_ldw_predec_own_pointer : stepGives (start 0x0100 false [(2, 0x0102)] [(0x00FE, 0x7F), (0x00FF, 0x80), (0x0100, 0x34), (0x0101, 0x92)] [0x90, 0x2C])
    (fun t => t.readReg 2 = 0x9234 ∧ t.pc = 0x0101 ∧ t.status = .ok) = true := by
  decide

/-- `stb [$r2, 3], $r1` -/
theorem test_stb : stepGives (start 0x0100 true [(2, 0x0200), (1, 0xABCD)] [] [0x8B, 0x30])
    (fun t => t.v = true ∧ t.readData 0x0203 = 0xCD ∧ t.pc = 0x0101 ∧ t.status = .ok) = true := by
  decide

/-- `stw [$r2, 0], $r1` -/
theorem test_stw_wraps : stepGives (start 0x0100 false [(2, 0xFFFF), (1, 0x1234)] [] [0x88, 0x38])
    (fun t => t.readData 0x0000 = 0x12 ∧ t.readData 0xFFFF = 0x34 ∧ t.pc = 0x0101 ∧ t.status = .ok) = true := by
  decide

/-- `stw.l [$r40, 100], $r41` -/
theorem test_stw_long : stepGives (start 0x0100 false [(40, 0x0100), (41, 0xCAFE)] [] [0x0C, 0xB8, 0x6C, 0x03])
    (fun t => t.readData 0x0164 = 0xFE ∧ t.readData 0x0165 = 0xCA ∧ t.pc = 0x0102 ∧ t.status = .ok) = true := by
  decide

/-- `stb [$r2+, 0], $r1` -/
theorem test_stb_postinc : stepGives (start 0x0100 false [(2, 0x0200), (1, 0x0041)] [] [0x88, 0x32])
    (fun t => t.readReg 2 = 0x0201 ∧ t.readData 0x0200 = 0x41 ∧ t.pc = 0x0101 ∧ t.status = .ok) = true := by
  decide

/-- `stw [$r2+, 0], $r2` -/
theorem test_stw_postinc_own_pointer : stepGives (start 0x0100 false [(2, 0x0200)] [] [0x90, 0x3A])
    (fun t => t.readReg 2 = 0x0202 ∧ t.readData 0x0200 = 0x00 ∧ t.readData 0x0201 = 0x02 ∧ t.pc = 0x0101 ∧ t.status = .ok) = true := by
  decide

/-- `stw [$r2+, 2], $r1` -/
theorem test_stw_postinc : stepGives (start 0x0100 false [(2, 0x0200), (1, 0xBEEF)] [] [0x8A, 0x3A])
    (fun t => t.readReg 2 = 0x0202 ∧ t.readData 0x0202 = 0xEF ∧ t.readData 0x0203 = 0xBE ∧ t.pc = 0x0101 ∧ t.status = .ok) = true := by
  decide

/-- `stb [-$r2, 0], $r1` -/
theorem test_stb_predec_wraps : stepGives (start 0x0100 false [(2, 0x0000), (1, 0x0099)] [] [0x88, 0x34])
    (fun t => t.readReg 2 = 0xFFFF ∧ t.readData 0xFFFF = 0x99 ∧ t.pc = 0x0101 ∧ t.status = .ok) = true := by
  decide

/-- `stb.l [-$r62, 511], $r5` -/
theorem test_stb_predec_long : stepGives (start 0x0100 false [(62, 0x0002), (5, 0x1177)] [] [0xAF, 0xB5, 0xC7, 0x0F])
    (fun t => t.readReg 62 = 0x0001 ∧ t.readData 0x0200 = 0x77 ∧ t.pc = 0x0102 ∧ t.status = .ok) = true := by
  decide

/-- `stw [-$r2, -4], $r1` -/
theorem test_stw_predec : stepGives (start 0x0100 false [(2, 0x0202), (1, 0xCAFE)] [] [0x8C, 0x3C])
    (fun t => t.readReg 2 = 0x0200 ∧ t.readData 0x01FC = 0xFE ∧ t.readData 0x01FD = 0xCA ∧ t.pc = 0x0101 ∧ t.status = .ok) = true := by
  decide

/-- `beq -1, $r1, $r2` -/
theorem test_beq_back_by_one : stepGives (start 0x0100 false [(1, 0x0005), (2, 0x0005)] [] [0xCA, 0x45])
    (fun t => t.pc = 0x00FF ∧ t.status = .ok) = true := by
  decide

/-- `beq -1, $r1, $r2` -/
theorem test_beq_not_taken : stepGives (start 0x0100 false [(1, 0x0005), (2, 0x0006)] [] [0xCA, 0x45])
    (fun t => t.pc = 0x0101 ∧ t.status = .ok) = true := by
  decide

/-- `bne.l -1, $r1, $r2` -/
theorem test_bne_long : stepGives (start 0x0100 false [(1, 0x0005), (2, 0x0006)] [] [0xCA, 0xC7, 0xC0, 0x1F])
    (fun t => t.pc = 0x00FF ∧ t.status = .ok) = true := by
  decide

/-- `bne.l 511, $r1, $r2` -/
theorem test_bne_long_not_taken : stepGives (start 0x0100 false [(1, 0x0005), (2, 0x0005)] [] [0xCA, 0xC7, 0xC0, 0x0F])
    (fun t => t.pc = 0x0102 ∧ t.status = .ok) = true := by
  decide

/-- `blts 2, $r1, $r2` -/
theorem test_blts : stepGives (start 0x0100 false [(1, 0xFFFF), (2, 0x0001)] [] [0x8A, 0x48])
    (fun t => t.pc = 0x0102 ∧ t.status = .ok) = true := by
  decide

/-- `blts 2, $r1, $r2` -/
theorem test_blts_not_taken : stepGives (start 0x0100 false [(1, 0x0001), (2, 0xFFFF)] [] [0x8A, 0x48])
    (fun t => t.pc = 0x0101 ∧ t.status = .ok) = true := by
  decide

/-- `bgts 2, $r1, $r2` -/
theorem test_bgts : stepGives (start 0x0100 false [(1, 0x0001), (2, 0xFFFF)] [] [0x8A, 0x4A])
    (fun t => t.pc = 0x0102 ∧ t.status = .ok) = true := by
  decide

/-- `bgts 2, $r1, $r2` -/
theorem test_bgts_equal : stepGives (start 0x0100 false [(1, 0x0007), (2, 0x0007)] [] [0x8A, 0x4A])
    (fun t => t.pc = 0x0101 ∧ t.status = .ok) = true := by
  decide

/-- `bltu 2, $r1, $r2` -/
theorem test_bltu : stepGives (start 0x0100 false [(1, 0x0001), (2, 0xFFFF)] [] [0x8A, 0x4C])
    (fun t => t.pc = 0x0102 ∧ t.status = .ok) = true := by
  decide

/-- `bltu 2, $r1, $r2` -/
theorem test_bltu_not_taken : stepGives (start 0x0100 false [(1, 0xFFFF), (2, 0x0001)] [] [0x8A, 0x4C])
    (fun t => t.pc = 0x0101 ∧ t.status = .ok) = true := by
  decide

/-- `bgtu 2, $r1, $r2` -/
theorem test_bgtu : stepGives (start 0x0100 false [(1, 0xFFFF), (2, 0x0001)] [] [0x8A, 0x4E])
    (fun t => t.pc = 0x0102 ∧ t.status = .ok) = true := by
  decide

/-- `bgtu.l 341, $r33, $r12` -/
theorem test_bgtu_long : stepGives (start 0x0100 false [(33, 0x0002), (12, 0x0001)] [] [0x4C, 0xCF, 0xA1, 0x0A])
    (fun t => t.pc = 0x0255 ∧ t.status = .ok) = true := by
  decide

/-- `bra -1` -/
theorem test_bra_wraps : stepGives (start 0x0000 false [] [] [0xFF, 0x41])
    (fun t => t.pc = 0xFFFF ∧ t.status = .ok) = true := by
  decide

/-- `bra.l 0x12345` -/
theorem test_bra_long_wraps : stepGives (start 0x0100 false [] [] [0x45, 0xC1, 0x91, 0x00])
    (fun t => t.pc = 0x2445 ∧ t.status = .ok) = true := by
  decide

/-- `bal 0, $r1` -/
theorem test_bal_wraps : stepGives (start 0xFFFF false [] [] [0x01, 0x42])
    (fun t => t.readReg 1 = 0x0000 ∧ t.pc = 0xFFFF ∧ t.status = .ok) = true := by
  decide

/-- `bal.l 0x1234, $r63` -/
theorem test_bal_long : stepGives (start 0x0100 false [] [] [0xA7, 0xC3, 0x47, 0x02])
    (fun t => t.readReg 63 = 0x0102 ∧ t.pc = 0x1334 ∧ t.status = .ok) = true := by
  decide

/-- `jmp $r5` -/
theorem test_jmp : stepGives (start 0x0100 false [(5, 0x0200)] [] [0x40, 0x51])
    (fun t => t.pc = 0x0200 ∧ t.status = .ok) = true := by
  decide

/-- `jmp.l $r45` -/
theorem test_jmp_long : stepGives (start 0x0100 false [(45, 0xFFFF)] [] [0x40, 0xD1, 0x40, 0x01])
    (fun t => t.pc = 0xFFFF ∧ t.status = .ok) = true := by
  decide

/-- `jal $r5, $r6` -/
theorem test_jal : stepGives (start 0x0100 false [(5, 0x0200)] [] [0x46, 0x53])
    (fun t => t.readReg 6 = 0x0101 ∧ t.pc = 0x0200 ∧ t.status = .ok) = true := by
  decide

/-- `jal.l $r45, $r54` -/
theorem test_jal_long : stepGives (start 0x0100 false [(45, 0x0300)] [] [0x46, 0xD3, 0x46, 0x01])
    (fun t => t.readReg 54 = 0x0102 ∧ t.pc = 0x0300 ∧ t.status = .ok) = true := by
  decide

/-! ## The instructions whose result is open: what the spec fixes whichever effect is chosen (R145, R155, R167) -/

/-- `ldw [$r2+, 0]` into `$r2`: only `$r2` and the pc change. -/
theorem test_postinc_load_open : stepGives (start 0x0100 true [(2, 0x0100), (3, 7)] [(0x0100, 0x34)] [0x90, 0x2A])
    (fun t => t.readReg 3 = 7 ∧ t.v = true ∧ t.readData 0x0100 = 0x34 ∧ t.pc = 0x0101 ∧ t.status = .ok) = true := by
  decide

/-- `stw [-$r2, 0]` of `$r2`: the pointer is decremented, the pc moves on. -/
theorem test_predec_store_open : stepGives (start 0x0100 false [(2, 0x0202)] [] [0x90, 0x3C])
    (fun t => t.readReg 2 = 0x0200 ∧ t.pc = 0x0101 ∧ t.status = .ok) = true := by
  decide

/-- `jal $r5, $r5`: the link is written. -/
theorem test_jal_open : stepGives (start 0x0100 false [(5, 0x0200)] [] [0x45, 0x53])
    (fun t => t.readReg 5 = 0x0101 ∧ t.status = .ok) = true := by
  decide

/-! ## The host's side and the edges of the machine -/

/-- The last section that fits and the first that does not (R45, R207). -/
theorem test_section_edges :
    (State.reset.loadCodeSection [1, 2] 131070).isSome = true ∧ State.reset.loadCodeSection [1, 2] 131071 = none ∧
    (State.reset.loadDataSection [1, 2] 65534).isSome = true ∧ State.reset.loadDataSection [1, 2] 65535 = none := by
  decide

/-- An empty section is accepted up to the top and refused above it (R207, log entry 19). -/
theorem test_empty_section_edges :
    State.reset.loadCodeSection [] 131072 = some State.reset ∧ State.reset.loadCodeSection [] 131073 = none ∧
    State.reset.loadDataSection [] 65536 = some State.reset ∧ State.reset.loadDataSection [] 65537 = none := by
  decide

/-- A write of the byte an unlisted address reads as removes the entry, so equal memories are equal lists. -/
theorem test_memory_canonical :
    Memory.write (Memory.write (Memory.write [] 5 1) 3 2) 5 0 = [(3, 2)] ∧
    Memory.wf 6 (Memory.write (Memory.write [] 5 1) 3 2) = true := by
  decide

/-- `setReg` stores the value modulo 2^16 (R11, R22). -/
theorem test_set_reg : ((State.reset.setReg 63 65537).getReg 63 = 1) ∧ ((State.reset.setReg 0 (-1)).getReg 0 = 0xFFFF) := by
  decide

/-- `$r0` is an ordinary register (R11). -/
theorem test_r0_is_written : stepGives (start 0x0100 false [(2, 0xABCD)] [] [0x10, 0x12])
    (fun t => t.readReg 0 = 0xABCD) = true := by
  decide

/-- From reset with nothing placed the first step runs the zero halfword, NOP command 0 (log entry 12). -/
theorem test_first_step_of_an_empty_machine :
    stepGives State.reset (fun t => t.pc = 1 ∧ t.status = .breakpoint) = true := by
  decide

/-- An instruction placed by `withFetchWord` is the one the next step runs: `movi.l $r12, 0x1234`. -/
theorem test_with_fetch_word :
    stepGives (State.reset.withFetchWord 32 0b000_0001_001_001_000_1_00_1111_100_110_100)
      (fun t => t.readReg 12 = 0x1234 ∧ t.pc = 2) = true := by
  decide

/-- A launch: one code section, an entry point, a register and the flag (R208). -/
theorem test_launch :
    ((launch { codeSections := [([0x53, 0x02], 0x200)], dataSections := [([9], 4)], entry := 0x0100,
               regs := [(2, 5)], overflow := some true }).map
      fun s => decide (s.pc = 0x0100 ∧ s.readReg 2 = 5 ∧ s.v = true ∧ s.readData 4 = 9 ∧
        s.getCodeMem 0x201 = 0x02)) = some true := by
  decide

/-! ## Witnesses: inputs that meet the hypotheses of each statement that has any -/

/-- The state in which `addc.l $r1, $r2, $r3` is the next instruction. -/
def addcNext : State := start 0x0100 true [(2, 0xFFFF)] [] [0x53, 0x82, 0x00, 0x02]

/-- The state at the top of code memory whose halfword has bit 15 set. -/
def longAtTop : State := start 0xFFFF false [] [] [0x53, 0x82]

theorem witness_DecodeFollowsTheFiveSteps :
    ([] : List Byte).length < 2 ∧ [(0x53 : Byte)].length < 2 ∧
    decodeShort ((0x02 : Byte) ++ (0x53 : Byte)) = some (.addS 1 2 3) ∧
    (decodeShort ((0x82 : Byte) ++ (0x53 : Byte)) = none ∧ [(0x00 : Byte)].length < 2) ∧
    (decodeShort ((0x82 : Byte) ++ (0x53 : Byte)) = none ∧
      decodeLong ((0x02 : Byte) ++ (0x00 : Byte) ++ (0x82 : Byte) ++ (0x53 : Byte)) = some (.addcL 1 2 3)) ∧
    (decodeShort ((0x60 : Byte) ++ (0x00 : Byte)) = none ∧
      decodeLong ((0x00 : Byte) ++ (0x00 : Byte) ++ (0x60 : Byte) ++ (0x00 : Byte)) = none) := by
  decide

theorem witness_DecodingAnEncodingGivesItBack :
    (Instr.addiS 7 0 7).WellFormed = true ∧ (Instr.asriL 63 0 64).WellFormed = true ∧
    (Instr.braL (-2097152)).WellFormed = true := by
  decide

theorem witness_EncodingADecodedInstructionGivesTheBytes :
    decode [0x53, 0x02] = .success (.addS 1 2 3) 2 ∧
    decode [0x53, 0x82, 0x00, 0x02, 0xFF] = .success (.addcL 1 2 3) 4 := by
  decide

/-- One halfword for each condition of R69's short list, and one that decodes. -/
theorem witness_UnmatchedShortWords :
    ([0x6000, 0x2600, 0x5400, 0x1201, 0x5001, 0x5208] : List Word).all
      (fun h => h.extractLsb' 15 1 = 0 ∧ decodeShort h = none) = true ∧
    (0x0253 : Word).extractLsb' 15 1 = 0 ∧ decodeShort 0x0253 = some (.addS 1 2 3) := by
  decide

/-- One word for each condition of R69's long list, and one that decodes. -/
theorem witness_UnmatchedLongWords :
    ([0x80008200, 0x20008200, 0x0000E000, 0x02008C00, 0x04008200, 0x04008600, 0x00019200, 0x0000A600, 0x0000D400,
      0x0200D000, 0x0200D200] : List (BitVec 32)).all
      (fun w => w.extractLsb' 15 1 = 1 ∧ decodeLong w = none) = true ∧
    (0x02008253 : BitVec 32).extractLsb' 15 1 = 1 ∧ decodeLong 0x02008253 = some (.addcL 1 2 3) := by
  decide

theorem witness_Bit15TellsTheLength :
    decodeShort 0x0253 = some (.addS 1 2 3) ∧ decodeLong 0x02008253 = some (.addcL 1 2 3) := by
  decide

theorem witness_StepRunsTheDecodedInstruction :
    addcNext.halted = false ∧ decode addcNext.fetch = .success (.addcL 1 2 3) 4 := by
  decide

/-- A long instruction in the middle of code memory, and a short one in its last two bytes. -/
theorem witness_StepRunsTheInstructionInCodeMemory :
    (addcNext.halted = false ∧ (Instr.addcL 1 2 3).WellFormed = true ∧
      2 * addcNext.pc.toNat + (Instr.addcL 1 2 3).form.bytes ≤ 131072 ∧
      ∀ k (hk : k < (encodeBytes (.addcL 1 2 3)).length),
        addcNext.codeMem.read (2 * addcNext.pc.toNat + k) = (encodeBytes (.addcL 1 2 3))[k]) ∧
    (let top := start 0xFFFF false [] [] [0x53, 0x02]
    top.halted = false ∧ (Instr.addS 1 2 3).WellFormed = true ∧
      2 * top.pc.toNat + (Instr.addS 1 2 3).form.bytes ≤ 131072 ∧
      ∀ k (hk : k < (encodeBytes (.addS 1 2 3)).length),
        top.codeMem.read (2 * top.pc.toNat + k) = (encodeBytes (.addS 1 2 3))[k]) := by
  decide

theorem witness_ALoadedInstructionRunsNext :
    State.reset.halted = false ∧ (Instr.addcL 1 2 3).WellFormed = true ∧
    ∃ t, State.reset.loadCodeSection (encodeBytes (.addcL 1 2 3)) (2 * State.reset.pc.toNat) = some t :=
  ⟨rfl, rfl, _, rfl⟩

theorem witness_FetchStopsAtTheTopOfCodeMemory :
    (start 0xFFFE false [] [] []).pc ≠ 0xFFFF ∧ longAtTop.pc = 0xFFFF := by
  decide

theorem witness_ALongHalfwordAtTheTopIsInvalid :
    longAtTop.halted = false ∧ longAtTop.pc = 0xFFFF ∧ (longAtTop.codeMem.read 0x1FFFF).getLsbD 7 = true := by
  decide

theorem witness_ADecodeFailureChangesNothing :
    longAtTop.halted = false ∧ decode longAtTop.fetch = .failure .fewerThanFourBytes ∧
    (start 0 false [] [] [0x00, 0x60]).halted = false ∧
    decode (start 0 false [] [] [0x00, 0x60]).fetch = .failure .noEncodingMatches := by
  decide

theorem witness_TheCoreIsNeverLatched : State.reset.halted = false := rfl

theorem witness_TrapIsUnreachable : ∃ t, step addcNext = .next t := ⟨_, rfl⟩

theorem witness_AnAbortedCoreAcceptsNoStep : ∃ t, addcNext.unhandledOpcodeUnder .abort = .next t := ⟨_, rfl⟩

theorem witness_StepKeepsTheInvariant : Inv addcNext ∧ ∃ t, step addcNext = .next t :=
  ⟨⟨by decide, by decide, by decide⟩, _, rfl⟩

theorem witness_NoStepChangesCodeMemory : ∃ t, step addcNext = .next t := ⟨_, rfl⟩

theorem witness_StreamsAreAppendOnly :
    ∃ t, step (start 0x0100 false [(1, 0x4241)] [] [0x43, 0x00]) = .next t ∧ t.stdout = [0x41] := ⟨_, rfl, rfl⟩

/-- A step that quits, and one that does not. -/
theorem witness_OnlyQuitWritesTheExitCode :
    (∃ t, step (start 0x0100 false [(3, 7)] [] [0xC2, 0x00]) = .next t ∧ t.status = .quit) ∧
    ∃ t, step addcNext = .next t ∧ t.status ≠ .quit :=
  ⟨⟨_, rfl, rfl⟩, _, rfl, nofun⟩

theorem witness_OnlyAddAndSubtractWriteTheFlag :
    (∃ t, exec (.lslS 1 2 3) addcNext = .next t) ∧ writesV (.lslS 1 2 3) = false := ⟨⟨_, rfl⟩, rfl⟩

theorem witness_RegistersChangeOnlyWhereTheRuleSays :
    (∃ t, exec (.ldwPostincL 62 63 0) addcNext = .next t) ∧ (61 : Reg) ∉ mayWrite (.ldwPostincL 62 63 0) :=
  ⟨⟨_, rfl⟩, by decide⟩

/-- The addresses next to a stored word, the word lying across the top of data memory. -/
theorem witness_DataBytesChangeOnlyWhereAStoreGoes :
    (∃ t, exec (.stwS 2 0 1) addcNext = .next t) ∧
    (0xFFFE : Word) ∉ storedAt (.stwS 2 0 1) addcNext ∧ (0x0001 : Word) ∉ storedAt (.stwS 2 0 1) addcNext ∧
    (0xFFFF : Word) ∈ storedAt (.stwS 2 0 1) addcNext ∧ (0x0000 : Word) ∈ storedAt (.stwS 2 0 1) addcNext :=
  ⟨⟨_, rfl⟩, by decide, by decide, by decide, by decide⟩

theorem witness_OtherStateChangesOnlyByTheNop :
    (∃ t, exec (.stwS 2 0 1) addcNext = .next t) ∧ (Instr.stwS 2 0 1).opcode ≠ .nop := ⟨⟨_, rfl⟩, nofun⟩

theorem witness_ShortFormsReachRegisters0To7 :
    (Instr.movS 7 0).WellFormed = true ∧ (Instr.movS 7 0).form = .short ∧
    (∃ t, exec (.movS 7 0) addcNext = .next t) ∧ 8 ≤ (8 : Reg).val := ⟨rfl, rfl, ⟨_, rfl⟩, by decide⟩

/-- One command for each clause, the last clause at 5 and at the largest command of each form. -/
theorem witness_NopCommandEffects :
    (Instr.nopS 3 63, (1 : Word)) ∈ [(Instr.nopS 3 63, (1 : Word)), (.nopL 3 63, 2)] ∧
    (Instr.nopL 3 4095, (2 : Word)) ∈ [(Instr.nopS 3 4095, (1 : Word)), (.nopL 3 4095, 2)] ∧
    ((0 : Nat) = 0 ∧ (2 : Nat) = 2 ∧ (3 : Nat) = 3 ∧ (4 : Nat) = 4) ∧
    ((1 : Nat) = 1 ∨ 5 ≤ 1) ∧ ((5 : Nat) = 1 ∨ 5 ≤ 5) ∧ ((4095 : Nat) = 1 ∨ 5 ≤ 4095) := by
  decide

theorem witness_TheRegisterResultIsModular :
    (∃ t, exec (.addS 1 2 3) addcNext = .next t) ∧ (∃ t, exec (.addL 1 2 3) addcNext = .next t) ∧
    (∃ t, exec (.addiS 1 2 7) addcNext = .next t) ∧ (∃ t, exec (.addiL 1 2 1023) addcNext = .next t) ∧
    (∃ t, exec (.addcL 1 2 3) addcNext = .next t) ∧
    (∃ t, exec (.subS 1 2 3) addcNext = .next t) ∧ (∃ t, exec (.subL 1 2 3) addcNext = .next t) ∧
    (∃ t, exec (.subiS 1 2 7) addcNext = .next t) ∧ (∃ t, exec (.subiL 1 2 1023) addcNext = .next t) ∧
    ∃ t, exec (.subcL 1 2 3) addcNext = .next t :=
  ⟨⟨_, rfl⟩, ⟨_, rfl⟩, ⟨_, rfl⟩, ⟨_, rfl⟩, ⟨_, rfl⟩, ⟨_, rfl⟩, ⟨_, rfl⟩, ⟨_, rfl⟩, ⟨_, rfl⟩, _, rfl⟩

theorem witness_PostincrementLoadResults : (1 : Reg) ≠ 2 := by decide

theorem witness_PredecrementStoreResults : (63 : Reg) ≠ 62 := by decide

/-- Both forms of each instruction, the store at 0xFFFF, across the top of data memory. -/
theorem witness_WordStoreThenLoadRoundTrips :
    (Instr.stwS 2 0 1 ∈ [Instr.stwS 2 0 1, .stwL 2 0 1] ∧ ∃ t, exec (.stwS 2 0 1) addcNext = .next t) ∧
    (Instr.stwL 2 0 1 ∈ [Instr.stwS 2 0 1, .stwL 2 0 1] ∧ ∃ t, exec (.stwL 2 0 1) addcNext = .next t) ∧
    (Instr.ldwS 3 2 0 ∈ [Instr.ldwS 3 2 0, .ldwL 3 2 0] ∧ Instr.ldwL 3 2 0 ∈ [Instr.ldwS 3 2 0, .ldwL 3 2 0]) ∧
    (Instr.ldbS 3 2 0 ∈ [Instr.ldbS 3 2 0, .ldbL 3 2 0] ∧ Instr.ldbL 3 2 0 ∈ [Instr.ldbS 3 2 0, .ldbL 3 2 0]) ∧
    (Instr.ldbS 3 2 1 ∈ [Instr.ldbS 3 2 (0 + 1), .ldbL 3 2 (0 + 1)] ∧
      Instr.ldbL 3 2 1 ∈ [Instr.ldbS 3 2 (0 + 1), .ldbL 3 2 (0 + 1)]) :=
  ⟨⟨by decide, _, rfl⟩, ⟨by decide, _, rfl⟩, by decide, by decide, by decide⟩

theorem witness_CallResults : (5 : Reg) ≠ 6 := by decide

/-- For each relation, a state in which it holds of registers 1 and 2, the fields 1 and 2 of the words. -/
theorem witness_AnAllOnesOffsetBranchesBackByOne :
    let eq := start 0 false [(1, 5), (2, 5)] [] []
    let lo := start 0 false [(1, 0x8000), (2, 0x7FFF)] [] []
    narrow 1 = 1 ∧ narrow 2 = 2 ∧ full 0 1 = 1 ∧ full 0 2 = 2 ∧
    eq.readReg 1 = eq.readReg 2 ∧ lo.readReg 1 ≠ lo.readReg 2 ∧
    (lo.readReg 1).toInt < (lo.readReg 2).toInt ∧ (lo.readReg 2).toInt > (lo.readReg 1).toInt ∧
    lo.readReg 2 < lo.readReg 1 ∧ lo.readReg 1 > lo.readReg 2 := by
  decide

/-- Sections that end at the top of each memory, and sections that end one byte past it. -/
theorem witness_SectionLoadsWriteTheirBytes :
    (131072 < 131071 + [(1 : Byte), 2].length) ∧ (65536 < 65535 + [(1 : Byte), 2].length) ∧
    (∃ t, State.reset.loadCodeSection [1, 2] 131070 = some t) ∧
    ∃ t, State.reset.loadDataSection [1, 2] 65534 = some t :=
  ⟨by decide, by decide, ⟨_, rfl⟩, _, rfl⟩

/-- A run that ends at its second step, and one that is still running. -/
theorem witness_RunStopsAtTheFirstStatusOtherThanOk :
    (∃ t, run 2 addcNext = .ended t) ∧ ∃ t, run 1 addcNext = .running t := ⟨⟨_, rfl⟩, _, rfl⟩

theorem witness_SetRegThenGetReg : (1 : Reg) ≠ 2 := by decide

/-- A launch that loads both memories, sets two registers and the flag. -/
theorem witness_ALaunchLeavesWhatTheHostSetUp :
    let l : Launch := { codeSections := [([0x53, 0x02], 131070)], dataSections := [([9], 65535)], entry := 0xFFFF,
                        regs := [(0, -1), (63, 65535)], overflow := some true }
    (∃ s, launch l = some s) ∧ (l.regs.map Prod.fst).Nodup ∧ ((63 : Reg), (65535 : Int)) ∈ l.regs ∧
    l.overflow = some true :=
  ⟨⟨_, rfl⟩, by decide, by decide, rfl⟩

theorem witness_EqualReadingMemoriesAreEqual :
    Memory.wf 65536 [(3, 2), (5, 1)] = true ∧ Memory.wf 65536 (Memory.write (Memory.write [] 5 1) 3 2) = true ∧
    ∀ a, Memory.read [(3, 2), (5, 1)] a = Memory.read (Memory.write (Memory.write [] 5 1) 3 2) a :=
  ⟨by decide, by decide, fun _ => rfl⟩

end Sys2Proof.Tests
end

section
/-!
PROOFS. The host's register port (10_state.md R11, R22): what `getReg` reads after `setReg`, and what `setReg`
leaves unchanged.
-/

namespace Sys2Proof.Machine

@[simp] theorem toNat_trunc16 (z : Int) : (trunc16 z).toNat = (z % 65536).toNat :=
  BitVec.toNat_ofInt z

/-- The register port reads what register accesses read, so the rule for `writeReg` carries over. -/
@[simp] theorem State.getReg_setReg (s : State) (i j : Reg) (v : Int) :
    (s.setReg i v).getReg j = if j = i then trunc16 v else s.getReg j :=
  s.readReg_writeReg i j (trunc16 v)

theorem State.getReg_setReg_same (s : State) (i : Reg) (v : Int) :
    (s.setReg i v).getReg i = trunc16 v := by
  rw [State.getReg_setReg, if_pos rfl]

theorem State.getReg_setReg_of_ne (s : State) {i j : Reg} (v : Int) (h : j ≠ i) :
    (s.setReg i v).getReg j = s.getReg j := by
  rw [State.getReg_setReg, if_neg h]

/-- The frame of `setReg`: the register file is the one field it writes. -/
theorem State.setReg_changes_regs_only (s : State) (i : Reg) (v : Int) :
    s.setReg i v = { s with regs := (s.setReg i v).regs } := rfl

/-- Settles O56: the read-after-write rule at the register written and at every other one, then the frame. -/
theorem setRegThenGetReg : Obligations.SetRegThenGetReg := by
  intro s i v
  refine ⟨?written, ?others, s.setReg_changes_regs_only i v⟩
  case written =>
    rw [State.getReg_setReg_same, toNat_trunc16]
  case others =>
    intro j hj
    exact s.getReg_setReg_of_ne v hj

end Sys2Proof.Machine
end

section
/-!
PROOFS. Data memory (20_memory.md R34): the obligations' readings `withByte` and `withWord` at one address, and
`MemWrite` of each size as one of them.
-/

namespace Sys2Proof.Machine

open Sys2Proof.Safety

theorem withByte_apply (f : Word → Byte) (a x : Word) (b : Byte) :
    withByte f a b x = if x = a then b else f x := rfl

/-- Both bytes of a stored word, the high one at the wrapped next address. -/
theorem withWord_apply (f : Word → Byte) (a v x : Word) :
    withWord f a v x = if x = a + 1 then highByte v else if x = a then lowByte v else f x := rfl

theorem State.readData_memWrite_byte (s : State) (a v : Word) :
    (s.memWrite a .byte v).readData = withByte s.readData a (lowByte v) := by
  funext x
  rw [withByte_apply]
  exact s.readData_memWrite a x v .byte

theorem State.readData_memWrite_word (s : State) (a v : Word) :
    (s.memWrite a .word v).readData = withWord s.readData a v := by
  funext x
  rw [withWord_apply]
  exact s.readData_memWrite a x v .word

/-- Settles O47: one clause for each size of `MemWrite`. -/
theorem memWriteStoresItsBytes : Obligations.MemWriteStoresItsBytes := by
  intro s a v
  refine ⟨?byte, ?word⟩
  case byte => exact congrFun (s.readData_memWrite_byte a v)
  case word => exact congrFun (s.readData_memWrite_word a v)

end Sys2Proof.Machine
end

section
/-!
PROOFS. The decode algorithm (30_encoding.md R51), one equation for each of its five steps, on the halfword `H` and
the word `W` that R51 reads from the bytes.
-/

namespace Sys2Proof

/-- R51's word `W`: the four bytes in a row are the model's two halfwords, the first one low. -/
theorem fourBytes_eq_halfwords (b0 b1 b2 b3 : Byte) :
    b3 ++ b2 ++ b1 ++ b0 = wordOfBytes b2 b3 ++ wordOfBytes b0 b1 :=
  BitVec.append_assoc

/-- Step 1. -/
theorem decode_of_length_lt_two {bytes : List Byte} (hlen : bytes.length < 2) :
    decode bytes = .failure .fewerThanTwoBytes := by
  match bytes, hlen with
  | [], _ => rfl
  | [_], _ => rfl

/-- Step 2. -/
theorem decode_of_short_match {b0 b1 : Byte} {i : Instr} (rest : List Byte)
    (hshort : decodeShort (b1 ++ b0) = some i) : decode (b0 :: b1 :: rest) = .success i 2 := by
  simp only [decode, wordOfBytes, hshort]

/-- Step 3. -/
theorem decode_of_no_short_of_length_lt_four {b0 b1 : Byte} {rest : List Byte}
    (hshort : decodeShort (b1 ++ b0) = none) (hlen : rest.length < 2) :
    decode (b0 :: b1 :: rest) = .failure .fewerThanFourBytes := by
  match rest, hlen with
  | [], _ => simp only [decode, wordOfBytes, hshort]
  | [_], _ => simp only [decode, wordOfBytes, hshort]

/-- Step 4. -/
theorem decode_of_long_match {b0 b1 b2 b3 : Byte} {i : Instr} (rest : List Byte)
    (hshort : decodeShort (b1 ++ b0) = none) (hlong : decodeLong (b3 ++ b2 ++ b1 ++ b0) = some i) :
    decode (b0 :: b1 :: b2 :: b3 :: rest) = .success i 4 := by
  simp only [fourBytes_eq_halfwords, wordOfBytes] at hlong
  simp only [decode, wordOfBytes, hshort, hlong]

/-- Step 5. -/
theorem decode_of_no_match {b0 b1 b2 b3 : Byte} (rest : List Byte)
    (hshort : decodeShort (b1 ++ b0) = none) (hlong : decodeLong (b3 ++ b2 ++ b1 ++ b0) = none) :
    decode (b0 :: b1 :: b2 :: b3 :: rest) = .failure .noEncodingMatches := by
  simp only [fourBytes_eq_halfwords, wordOfBytes] at hlong
  simp only [decode, wordOfBytes, hshort, hlong]

/-- Settles O2: one clause for each step of R51, a failing step with the size of its failure. -/
theorem decodeFollowsTheFiveSteps : Obligations.DecodeFollowsTheFiveSteps := by
  refine ⟨?noHalfword, ?shortMatch, ?noWord, ?longMatch, ?noMatch⟩
  case noHalfword =>
    intro bytes hlen
    exact ⟨_, decode_of_length_lt_two hlen, rfl⟩
  case shortMatch =>
    intro b0 b1 rest i hshort
    exact decode_of_short_match rest hshort
  case noWord =>
    intro b0 b1 rest hshort hlen
    exact ⟨_, decode_of_no_short_of_length_lt_four hshort hlen, rfl⟩
  case longMatch =>
    intro b0 b1 b2 b3 rest i hshort hlong
    exact decode_of_long_match rest hshort hlong
  case noMatch =>
    intro b0 b1 b2 b3 rest hshort hlong
    exact ⟨_, decode_of_no_match rest hshort hlong, rfl⟩

end Sys2Proof
end

section
/-!
PROOFS. The run loop (40_execution_cycle.md R101, R104): `run` and `okSteps` both go on from `s` to `u` exactly at
an `Ok` step, and a run ends exactly at a step that is not one.
-/

namespace Sys2Proof.Machine

open Sys2Proof.Safety

/-- The steps after which the run loop goes on: the next state is `u`, with status `Ok`. -/
def OkStep (s u : State) : Prop := step s = .next u ∧ u.status = .ok

/-- What the step after `n` steps of status `Ok` answers. -/
def NextAfterOkSteps (n : Nat) (s t : State) : Prop := ∃ u, okSteps n s = some u ∧ step u = .next t

theorem okSteps_succ_eq_some_iff (n : Nat) (s t : State) :
    okSteps (n + 1) s = some t ↔ ∃ u, OkStep s u ∧ okSteps n u = some t := by
  cases hs : step s with
  | next v => by_cases hv : v.status = .ok <;> simp [okSteps, OkStep, hs, hv]
  | fault f => simp [okSteps, OkStep, hs]
  | refused r => simp [okSteps, OkStep, hs]

theorem run_succ_eq_running_iff (fuel : Nat) (s t : State) :
    run (fuel + 1) s = .running t ↔ ∃ u, OkStep s u ∧ run fuel u = .running t := by
  cases hs : step s with
  | next v => by_cases hv : v.status = .ok <;> simp [run, OkStep, hs, hv]
  | fault f => simp [run, OkStep, hs]
  | refused r => simp [run, OkStep, hs]

/-- A run ends at its first step or after an `Ok` step; no step is both. -/
theorem run_succ_eq_ended_iff (fuel : Nat) (s t : State) :
    run (fuel + 1) s = .ended t ↔
      (t.status ≠ .ok ∧ step s = .next t) ∨ ∃ u, OkStep s u ∧ run fuel u = .ended t := by
  cases hs : step s with
  | next v =>
    by_cases hv : v.status = .ok
    · have not_first : ¬ (t.status ≠ .ok ∧ v = t) := fun ⟨ht, hvt⟩ => ht (hvt ▸ hv)
      simp [run, OkStep, hs, hv, not_first]
    · have first : (t.status ≠ .ok ∧ v = t) ↔ v = t := and_iff_right_of_imp fun hvt => hvt ▸ hv
      simp [run, OkStep, hs, hv, first]
  | fault f => simp [run, OkStep, hs]
  | refused r => simp [run, OkStep, hs]

theorem nextAfterOkSteps_zero (s t : State) : NextAfterOkSteps 0 s t ↔ step s = .next t := by
  simp [NextAfterOkSteps, okSteps]

theorem nextAfterOkSteps_succ (n : Nat) (s t : State) :
    NextAfterOkSteps (n + 1) s t ↔ ∃ u, OkStep s u ∧ NextAfterOkSteps n u t := by
  simp only [NextAfterOkSteps, okSteps_succ_eq_some_iff]
  constructor
  · rintro ⟨w, ⟨u, hok, hw⟩, ht⟩
    exact ⟨u, hok, w, hw, ht⟩
  · rintro ⟨u, hok, w, hw, ht⟩
    exact ⟨w, ⟨u, hok, hw⟩, ht⟩

/-- A run is still going on exactly when every step it took returned `Ok`. -/
theorem run_eq_running_iff (fuel : Nat) (s t : State) :
    run fuel s = .running t ↔ okSteps fuel s = some t := by
  induction fuel generalizing s with
  | zero => simp [run, okSteps]
  | succ fuel ih => simp only [run_succ_eq_running_iff, okSteps_succ_eq_some_iff, ih]

/-- A run ends exactly at a step of another status that only `Ok` steps precede (R104). -/
theorem run_eq_ended_iff (fuel : Nat) (s t : State) :
    run fuel s = .ended t ↔ t.status ≠ .ok ∧ ∃ n < fuel, NextAfterOkSteps n s t := by
  induction fuel generalizing s with
  | zero => simp [run]
  | succ fuel ih =>
    have later : (∃ u, OkStep s u ∧ run fuel u = .ended t) ↔
        t.status ≠ .ok ∧ ∃ n < fuel, NextAfterOkSteps (n + 1) s t := by
      simp only [ih, nextAfterOkSteps_succ]
      constructor
      · rintro ⟨u, hok, ht, n, hn, hnext⟩
        exact ⟨ht, n, hn, u, hok, hnext⟩
      · rintro ⟨ht, n, hn, u, hok, hnext⟩
        exact ⟨u, hok, ht, n, hn, hnext⟩
    rw [run_succ_eq_ended_iff, later, ← and_or_left, Nat.exists_lt_succ_left, nextAfterOkSteps_zero]

/-- Settles O55: where a run ends, and how long it goes on. -/
theorem runStopsAtTheFirstStatusOtherThanOk : Obligations.RunStopsAtTheFirstStatusOtherThanOk := by
  intro fuel s t
  exact ⟨run_eq_ended_iff fuel s t, run_eq_running_iff fuel s t⟩

end Sys2Proof.Machine
end

section
/-!
PROOFS. The common arithmetic rule (43_arith.md R115): what `writeArith` leaves, then the add and the subtract family
as cases of it, with and without a carry or borrow in.
-/

namespace Sys2Proof.Machine

open Sys2Proof.Safety

variable {i : Instr} {f : Form} {rd : Reg} {a b c res : Int} {s : State}

/-- R115 once for all ten instructions: whatever ends in `writeArith` of the rule's `res` has the rule's effect. -/
theorem writesSum_of_exec_eq_writeArith (hexec : exec i s = writeArith f rd (arithResult res) s) :
    WritesSum i s rd res (formUnits f) := by
  refine ⟨_, hexec, ?regs, ?flag, rfl, fun _ => rfl, rfl, rfl, ?elsewhere⟩
  case regs =>
    intro r
    simp [withReg]
  case flag => exact arithResult_v res
  case elsewhere => exact ⟨rfl, rfl, rfl, rfl, rfl, rfl⟩

/-- ADDC (R118), and the rule of which ADD and ADDI are the case without a carry. -/
theorem writesSum_of_addFamily (hexec : exec i s = writeArith f rd (addFamily a b c) s) :
    WritesSum i s rd (a + b + c) (formUnits f) :=
  writesSum_of_exec_eq_writeArith hexec

/-- ADD and ADDI (R116, R117). -/
theorem writesSum_of_addFamily_zero (hexec : exec i s = writeArith f rd (addFamily a b 0) s) :
    WritesSum i s rd (a + b) (formUnits f) := by
  simpa using writesSum_of_addFamily hexec

/-- SUBC (R121), and the rule of which SUB and SUBI are the case without a borrow. -/
theorem writesSum_of_subFamily (hexec : exec i s = writeArith f rd (subFamily a b c) s) :
    WritesSum i s rd (a - b - c) (formUnits f) :=
  writesSum_of_exec_eq_writeArith hexec

/-- SUB and SUBI (R119, R120). -/
theorem writesSum_of_subFamily_zero (hexec : exec i s = writeArith f rd (subFamily a b 0) s) :
    WritesSum i s rd (a - b) (formUnits f) := by
  simpa using writesSum_of_subFamily hexec

end Sys2Proof.Machine
end

section
/-!
PROOFS. The ten add and subtract instructions (43_arith.md R116 to R121), each a case of the common rule.
-/

namespace Sys2Proof.Machine

/-- Settles O34: each instruction by the rule of its family, in its form; only ADDC and SUBC have a carry in. Each
`rfl` is the instruction's arm of `exec`, with a source register's `s16` and `carryIn` as the statement writes them. -/
theorem addAndSubtractResults : Obligations.AddAndSubtractResults := by
  intro rd ra rb imm s
  refine ⟨?addS, ?addL, ?addiS, ?addiL, ?addcL, ?subS, ?subL, ?subiS, ?subiL, ?subcL⟩
  case addS => exact writesSum_of_addFamily_zero (f := .short) rfl
  case addL => exact writesSum_of_addFamily_zero (f := .long) rfl
  case addiS => exact writesSum_of_addFamily_zero (f := .short) rfl
  case addiL => exact writesSum_of_addFamily_zero (f := .long) rfl
  case addcL => exact writesSum_of_addFamily (f := .long) rfl
  case subS => exact writesSum_of_subFamily_zero (f := .short) rfl
  case subL => exact writesSum_of_subFamily_zero (f := .long) rfl
  case subiS => exact writesSum_of_subFamily_zero (f := .short) rfl
  case subiL => exact writesSum_of_subFamily_zero (f := .long) rfl
  case subcL => exact writesSum_of_subFamily (f := .long) rfl

end Sys2Proof.Machine
end

section
/-!
PROOFS. The common shift rule (45_shift.md R135): what `writeBack` leaves, then each of the three shift functions
written back, for any form and any source of the amount.
-/

namespace Sys2Proof.Machine

open Sys2Proof.Safety

variable {i : Instr} {f : Form} {rd : Reg} {s : State}

/-- Whatever ends in `writeBack` of a value writes that value, moves on by its form and changes nothing else. -/
theorem writes_of_exec_eq_writeBack {v : Word} (hexec : exec i s = writeBack f rd v s) :
    Writes i s rd v (formUnits f) := by
  refine ⟨_, hexec, ?regs, rfl, rfl, fun _ => rfl, rfl, rfl, ?elsewhere⟩
  case regs =>
    intro r
    simp [withReg]
  case elsewhere => exact ⟨rfl, rfl, rfl, rfl, rfl, rfl⟩

variable {x : Word} {amount n : Nat}

/-- LSL and LSLI (R137, R140). -/
theorem writes_of_lsl16 (hexec : exec i s = writeBack f rd (lsl16 x amount) s) (hamount : amount = n) :
    Writes i s rd (BitVec.ofNat 16 (x.toNat * 2 ^ n)) (formUnits f) := by
  rw [lsl16_eq, hamount] at hexec
  exact writes_of_exec_eq_writeBack hexec

/-- LSR and LSRI (R138, R141). -/
theorem writes_of_lsr16 (hexec : exec i s = writeBack f rd (lsr16 x amount) s) (hamount : amount = n) :
    Writes i s rd (BitVec.ofNat 16 (x.toNat / 2 ^ n)) (formUnits f) := by
  rw [lsr16_eq, hamount] at hexec
  exact writes_of_exec_eq_writeBack hexec

/-- ASR and ASRI (R136, R139). -/
theorem writes_of_asr16 (hexec : exec i s = writeBack f rd (asr16 x amount) s) (hamount : amount = n) :
    Writes i s rd (BitVec.ofInt 16 (x.toInt / 2 ^ n)) (formUnits f) := by
  rw [asr16_eq, hamount] at hexec
  exact writes_of_exec_eq_writeBack hexec

end Sys2Proof.Machine
end

section
/-!
PROOFS. The twelve shift instructions (45_shift.md R136 to R141), each a case of the common rule.
-/

namespace Sys2Proof.Machine

/-- Settles O37: each instruction by the rule of its shift function, in its form, with the mask of a register or of
an immediate amount. Each `rfl` is the instruction's arm of `exec`. -/
theorem shiftResults : Obligations.ShiftResults := by
  intro rd ra rb sh s
  have hreg := shiftByReg_eq (s.readReg rb)
  have himm := shiftByImm_eq sh
  refine ⟨?lslS, ?lslL, ?lsliS, ?lsliL, ?lsrS, ?lsrL, ?lsriS, ?lsriL, ?asrS, ?asrL, ?asriS, ?asriL⟩
  case lslS => exact writes_of_lsl16 (f := .short) rfl hreg
  case lslL => exact writes_of_lsl16 (f := .long) rfl hreg
  case lsliS => exact writes_of_lsl16 (f := .short) rfl himm
  case lsliL => exact writes_of_lsl16 (f := .long) rfl himm
  case lsrS => exact writes_of_lsr16 (f := .short) rfl hreg
  case lsrL => exact writes_of_lsr16 (f := .long) rfl hreg
  case lsriS => exact writes_of_lsr16 (f := .short) rfl himm
  case lsriL => exact writes_of_lsr16 (f := .long) rfl himm
  case asrS => exact writes_of_asr16 (f := .short) rfl hreg
  case asrL => exact writes_of_asr16 (f := .long) rfl hreg
  case asriS => exact writes_of_asr16 (f := .short) rfl himm
  case asriL => exact writes_of_asr16 (f := .long) rfl himm

end Sys2Proof.Machine
end

section
/-!
PROOFS. The decoder on a frame: the words of the formats (30_encoding.md R53, R54) go to the table of their class.
-/

namespace Sys2Proof

open Sys2Proof.Safety

section
variable (op x : BitVec 4) (d a b dh ah bh dl al bl : BitVec 3)

theorem decodeShort_class0 : decodeShort (shortBits 0 op d a b) = shortClass0 ⟨0, 0, op, d, a, b⟩ :=
  decodeShort_toHalf ⟨0, 0, op, d, a, b⟩

theorem decodeShort_class1 : decodeShort (shortBits 1 op d a b) = shortClass1 ⟨0, 1, op, d, a, b⟩ :=
  decodeShort_toHalf ⟨0, 1, op, d, a, b⟩

theorem decodeShort_class2 : decodeShort (shortBits 2 op d a b) = shortClass2 ⟨0, 2, op, d, a, b⟩ :=
  decodeShort_toHalf ⟨0, 2, op, d, a, b⟩

/-- The word of a long form is its two halfwords in a row. -/
theorem longBits_eq_halfwords (cls : BitVec 2) : longBits cls op x dh ah bh dl al bl =
    Frame.toHalf ⟨0, 0, x, dh, ah, bh⟩ ++ Frame.toHalf ⟨1, cls, op, dl, al, bl⟩ := by
  change _ = (0#1 ++ 0#2 ++ x ++ dh ++ ah ++ bh) ++ (1#1 ++ cls ++ op ++ dl ++ al ++ bl)
  simp only [longBits, BitVec.append_assoc, BitVec.cast_eq]

theorem decodeLong_class0 : decodeLong (longBits 0 op x dh ah bh dl al bl) =
    longClass0 ⟨1, 0, op, dl, al, bl⟩ ⟨0, 0, x, dh, ah, bh⟩ := by
  rw [longBits_eq_halfwords, decodeLong_toHalf]
  rfl

theorem decodeLong_class1 : decodeLong (longBits 1 op x dh ah bh dl al bl) =
    longClass1 ⟨1, 1, op, dl, al, bl⟩ ⟨0, 0, x, dh, ah, bh⟩ := by
  rw [longBits_eq_halfwords, decodeLong_toHalf]
  rfl

theorem decodeLong_class2 : decodeLong (longBits 2 op x dh ah bh dl al bl) =
    longClass2 ⟨1, 2, op, dl, al, bl⟩ ⟨0, 0, x, dh, ah, bh⟩ := by
  rw [longBits_eq_halfwords, decodeLong_toHalf]
  rfl

end

/-- Settles O3: each row is read off the table of its class, rows of classes 0, 1 and 2 in that order. -/
theorem shortFieldsReadAsTheFormatsPlaceThem : Obligations.ShortFieldsReadAsTheFormatsPlaceThem := by
  intro d a b
  have class0 := decodeShort_class0
  have class1 := decodeShort_class1
  have class2 := decodeShort_class2
  exact ⟨
    class0 .., class0 .., class0 .., class0 .., class0 .., class0 .., class0 .., class0 .., class0 ..,
    class0 .., class0 .., class0 .., class0 .., class0 .., class0 .., class0 .., class1 .., class1 ..,
    class1 .., class1 .., class1 .., class1 .., class1 .., class1 .., class1 .., class1 .., class1 ..,
    class1 .., class2 .., class2 .., class2 .., class2 .., class2 .., class2 .., class2 .., class2 ..,
    class2 .., class2 ..⟩

/-- ANDI, ORI and XORI have an X whose low bit is 1 and whose high bits are the immediate's (R64). -/
theorem longClass0_immX (y dh ah bh dl al bl : BitVec 3) :
    longClass0 ⟨1, 0, 3, dl, al, bl⟩ ⟨0, 0, y ++ 1#1, dh, ah, bh⟩ =
      some (.andiL (full dh dl) (full ah al) (y ++ bh ++ bl).toNat) ∧
    longClass0 ⟨1, 0, 4, dl, al, bl⟩ ⟨0, 0, y ++ 1#1, dh, ah, bh⟩ =
      some (.oriL (full dh dl) (full ah al) (y ++ bh ++ bl).toNat) ∧
    longClass0 ⟨1, 0, 5, dl, al, bl⟩ ⟨0, 0, y ++ 1#1, dh, ah, bh⟩ =
      some (.xoriL (full dh dl) (full ah al) (y ++ bh ++ bl).toNat) := by
  simp [longClass0, immX_ne_zero, immX_low, immX_high]

/-- Settles O4: each row is read off the table of its class, but for the three rows whose X carries an immediate. -/
theorem longFieldsReadAsTheFormatsPlaceThem : Obligations.LongFieldsReadAsTheFormatsPlaceThem := by
  intro x y dh ah bh dl al bl
  have class0 := decodeLong_class0
  have class1 := decodeLong_class1
  have class2 := decodeLong_class2
  obtain ⟨andi, ori, xori⟩ := longClass0_immX y dh ah bh dl al bl
  exact ⟨
    class0 .., class0 .., class0 .., class0 .., class0 .., class0 .., class0 .., class0 .., class0 ..,
    class0 .., class0 .., class0 .., class0 .., class0 .., class0 .., class0 .., class0 .., class0 ..,
    (class0 ..).trans andi, (class0 ..).trans ori, (class0 ..).trans xori, class1 .., class1 .., class1 ..,
    class1 .., class1 .., class1 .., class1 .., class1 .., class1 .., class1 .., class1 .., class1 ..,
    class2 .., class2 .., class2 .., class2 .., class2 .., class2 .., class2 .., class2 .., class2 .., class2 ..⟩

end Sys2Proof
end

section
/-!
PROOFS. Decoding an encoding (30_encoding.md sections 1 to 6): the fields of a well-formed instruction survive their
format, one proof for each format of R63 and R64.
-/

namespace Sys2Proof

open Sys2Proof.Safety

/-- A short form's bytes decode to what its class reads from the fields. -/
theorem decode_short_of_class {i : Instr} {cls : BitVec 2} {op : BitVec 4} {d a b : BitVec 3} {o : Option Instr}
    (rest : List Byte) (hclass : decodeShort (shortBits cls op d a b) = o) (hread : o = some i)
    (hform : i.form = .short) (henc : encode i = shortWord cls op d a b) :
    decode (encodeBytes i ++ rest) = .success i i.form.bytes :=
  decode_shortWord cls op d a b i rest hform henc (hclass.trans hread)

/-- A long form's bytes decode to what its class reads from the fields. -/
theorem decode_long_of_class {i : Instr} {cls : BitVec 2} {op x : BitVec 4} {dh ah bh dl al bl : BitVec 3}
    {o : Option Instr} (rest : List Byte) (hclass : decodeLong (longBits cls op x dh ah bh dl al bl) = o)
    (hread : o = some i) (hform : i.form = .long) (henc : encode i = longWords cls op x dh ah bh dl al bl) :
    decode (encodeBytes i ++ rest) = .success i i.form.bytes :=
  decode_longWords cls op x dh ah bh dl al bl i rest hform henc
    (longBits_eq_halfwords .. ▸ hclass.trans hread)

/-- Settles O5: by the class of the form. A register, immediate, shift amount or offset that fits its field is read
back from it, and a long form's field is joined again from its parts. -/
theorem decodingAnEncodingGivesItBack : Obligations.DecodingAnEncodingGivesItBack := by
  intro i rest hwf
  cases i with
  | nopS | addS | subS | andS | orS | xorS | asrS | lslS | lsrS | movS | addiS | subiS | asriS | lsliS | lsriS | moviS =>
    simp only [Instr.WellFormed, Bool.and_eq_true] at hwf
    refine decode_short_of_class rest (decodeShort_class0 ..) ?_ rfl rfl
    simp [shortClass0, narrow_low, ofNat_toNat_of_fits, shift_of_fits, hwf, -BitVec.toNat_ofNat]
  | ldbS | ldbPostincS | ldbPredecS | ldwS | ldwPostincS | ldwPredecS
  | stbS | stbPostincS | stbPredecS | stwS | stwPostincS | stwPredecS =>
    simp only [Instr.WellFormed, Bool.and_eq_true] at hwf
    refine decode_short_of_class rest (decodeShort_class1 ..) ?_ rfl rfl
    simp [shortClass1, narrow_low, sext_of_fits, hwf]
  | braS | balS | beqS | bneS | bltsS | bgtsS | bltuS | bgtuS | jmpS | jalS =>
    simp only [Instr.WellFormed, Bool.and_eq_true] at hwf
    refine decode_short_of_class rest (decodeShort_class2 ..) ?_ rfl rfl
    simp [shortClass2, narrow_low, sext_of_fits, hwf]
  | nopL | addL | subL | andL | orL | xorL | asrL | lslL | lsrL | movL | addiL | subiL | asriL | lsliL | lsriL | moviL
  | addcL | subcL | andiL | oriL | xoriL =>
    simp only [Instr.WellFormed] at hwf
    refine decode_long_of_class rest (decodeLong_class0 ..) ?_ rfl rfl
    simp [longClass0, immX_ne_zero, immX_low, immX_high, ofNat_toNat_of_fits, shift_of_fits, hwf, -BitVec.toNat_ofNat]
  | ldbL | ldbPostincL | ldbPredecL | ldwL | ldwPostincL | ldwPredecL
  | stbL | stbPostincL | stbPredecL | stwL | stwPostincL | stwPredecL =>
    simp only [Instr.WellFormed] at hwf
    refine decode_long_of_class rest (decodeLong_class1 ..) ?_ rfl rfl
    simp [longClass1, sext_of_fits, hwf]
  | braL | balL | beqL | bneL | bltsL | bgtsL | bltuL | bgtuL | jmpL | jalL =>
    simp only [Instr.WellFormed] at hwf
    refine decode_long_of_class rest (decodeLong_class2 ..) ?_ rfl rfl
    simp [longClass2, sext_of_fits, hwf]

end Sys2Proof
end

section
/-!
PROOFS. Encoding a decoded instruction (30_encoding.md sections 1 to 6): what a class reads from the fields of a word
is a well-formed instruction of that length, and its encoding has those fields again.
-/

namespace Sys2Proof

open Sys2Proof.Safety

/-- `i` is a well-formed instruction of the form `f`, and `words` is its encoding. -/
structure SpelledBy (f : Form) (words : List Word) (i : Instr) : Prop where
  wellFormed : i.WellFormed = true
  form_eq : i.form = f
  encode_eq : encode i = words

theorem eq_ofNat_of_toNat_eq {n k : Nat} {v : BitVec n} (h : v.toNat = k) : v = BitVec.ofNat n k := by
  rw [← h, BitVec.ofNat_toNat, BitVec.setWidth_eq]

/-! The parts of a field that was joined from them -/

theorem bits3_append_low {n : Nat} (u : BitVec n) (v : BitVec 3) : bits3 (u ++ v) 0 = v :=
  BitVec.extractLsb'_append_eq_right

theorem bits3_append_above {n k : Nat} (u : BitVec n) (v : BitVec 3) (hk : 3 ≤ k) :
    bits3 (u ++ v) k = bits3 u (k - 3) :=
  BitVec.extractLsb'_append_eq_of_le hk

theorem bits4_append_above {n k : Nat} (u : BitVec n) (v : BitVec 3) (hk : 3 ≤ k) :
    bits4 (u ++ v) k = bits4 u (k - 3) :=
  BitVec.extractLsb'_append_eq_of_le hk

theorem bits3_whole (v : BitVec 3) : bits3 v 0 = v := bits_whole v

theorem bits4_whole (v : BitVec 4) : bits4 v 0 = v := bits_whole v

/-- The X of an ANDI, ORI or XORI is its high bits and a 1. -/
theorem immX_join {x : BitVec 4} (h : x.extractLsb' 0 1 = 1#1) : x.extractLsb' 1 3 ++ 1#1 = x := by
  rw [← h]
  exact (bits_append x 0 3 1).trans (bits_whole x)

/-- Every halfword has a frame (R53). -/
theorem exists_frame (w : Word) : ∃ f : Frame, w = f.toHalf :=
  ⟨Frame.ofHalf w, (Frame.toHalf_ofHalf w).symm⟩

/-- Every long word is two halfwords with a frame each, the low one first (R54). -/
theorem exists_frames (w : BitVec 32) : ∃ f h : Frame, w = h.toHalf ++ f.toHalf := by
  obtain ⟨f, hf⟩ := exists_frame (w.extractLsb' 0 16)
  obtain ⟨h, hh⟩ := exists_frame (w.extractLsb' 16 16)
  exact ⟨f, h, by rw [← hf, ← hh, long_append]⟩

/-- A halfword decodes only by the table of its class, with bit 15 clear. -/
theorem decodeShort_eq_some_cases {w : Word} {i : Instr} (h : decodeShort w = some i) :
    ∃ op d a b,
      (w = shortBits 0 op d a b ∧ shortClass0 ⟨0, 0, op, d, a, b⟩ = some i) ∨
      (w = shortBits 1 op d a b ∧ shortClass1 ⟨0, 1, op, d, a, b⟩ = some i) ∨
      (w = shortBits 2 op d a b ∧ shortClass2 ⟨0, 2, op, d, a, b⟩ = some i) := by
  obtain ⟨⟨l, cls, op, d, a, b⟩, rfl⟩ := exists_frame w
  rw [decodeShort_toHalf] at h
  refine ⟨op, d, a, b, ?_⟩
  split at h
  case isFalse => cases h
  case isTrue hl =>
    obtain rfl : l = 0 := hl
    split at h
    case h_1 hcls =>
      obtain rfl : cls = 0 := eq_ofNat_of_toNat_eq hcls
      exact .inl ⟨rfl, h⟩
    case h_2 hcls =>
      obtain rfl : cls = 1 := eq_ofNat_of_toNat_eq hcls
      exact .inr (.inl ⟨rfl, h⟩)
    case h_3 hcls =>
      obtain rfl : cls = 2 := eq_ofNat_of_toNat_eq hcls
      exact .inr (.inr ⟨rfl, h⟩)
    case h_4 => cases h

/-- A word decodes only by the table of its class, with bit 15 set, bit 31 clear and bits 30:29 clear. -/
theorem decodeLong_eq_some_cases {w : BitVec 32} {i : Instr} (h : decodeLong w = some i) :
    ∃ op x dh ah bh dl al bl,
      (w = longBits 0 op x dh ah bh dl al bl ∧ longClass0 ⟨1, 0, op, dl, al, bl⟩ ⟨0, 0, x, dh, ah, bh⟩ = some i) ∨
      (w = longBits 1 op x dh ah bh dl al bl ∧ longClass1 ⟨1, 1, op, dl, al, bl⟩ ⟨0, 0, x, dh, ah, bh⟩ = some i) ∨
      (w = longBits 2 op x dh ah bh dl al bl ∧ longClass2 ⟨1, 2, op, dl, al, bl⟩ ⟨0, 0, x, dh, ah, bh⟩ = some i) := by
  obtain ⟨⟨l, cls, op, dl, al, bl⟩, ⟨lh, clsh, x, dh, ah, bh⟩, rfl⟩ := exists_frames w
  rw [decodeLong_toHalf] at h
  refine ⟨op, x, dh, ah, bh, dl, al, bl, ?_⟩
  simp only [longBits_eq_halfwords]
  split at h
  case isFalse => cases h
  case isTrue hframe =>
    obtain ⟨rfl, rfl, rfl⟩ : l = 1 ∧ lh = 0 ∧ clsh = 0 := hframe
    split at h
    case h_1 hcls =>
      obtain rfl : cls = 0 := eq_ofNat_of_toNat_eq hcls
      exact .inl ⟨rfl, h⟩
    case h_2 hcls =>
      obtain rfl : cls = 1 := eq_ofNat_of_toNat_eq hcls
      exact .inr (.inl ⟨rfl, h⟩)
    case h_3 hcls =>
      obtain rfl : cls = 2 := eq_ofNat_of_toNat_eq hcls
      exact .inr (.inr ⟨rfl, h⟩)
    case h_4 => cases h

theorem shortWord_eq (cls : BitVec 2) (op : BitVec 4) (d a b : BitVec 3) :
    shortWord cls op d a b = [shortBits cls op d a b] := rfl

theorem longWords_eq (cls : BitVec 2) (op x : BitVec 4) (dh ah bh dl al bl : BitVec 3) :
    longWords cls op x dh ah bh dl al bl = [(longBits cls op x dh ah bh dl al bl).extractLsb' 0 16,
      (longBits cls op x dh ah bh dl al bl).extractLsb' 16 16] := by
  rw [longBits_eq_halfwords, long_low, long_high]
  rfl

/-- By the rows of the three class tables: the fields a row reads fit, and the encoder puts them back. -/
theorem spelledBy_of_decodeShort {w : Word} {i : Instr} (h : decodeShort w = some i) : SpelledBy .short [w] i := by
  obtain ⟨op, d, a, b, ⟨rfl, hread⟩ | ⟨rfl, hread⟩ | ⟨rfl, hread⟩⟩ := decodeShort_eq_some_cases h
  all_goals
    clear h
    simp only [shortClass0, shortClass1, shortClass2] at hread
    split at hread
  all_goals try split_ifs at hread
  all_goals cases hread
  all_goals
    obtain rfl := eq_ofNat_of_toNat_eq (v := op) ‹_›
    constructor
    · simp [Instr.WellFormed, narrowReg_narrow, fitsUnsigned_toNat, fitsShift_shift, fitsSigned_sext]
    · rfl
    · simp_all [encode, shortRI6, shortWord_eq, shiftAmount, ofInt_sext, bits3_append_low, bits3_append_above, bits3_whole]

/-- As for the short forms, with X and the high parts of the fields in the second halfword. -/
theorem spelledBy_of_decodeLong {w : BitVec 32} {i : Instr} (h : decodeLong w = some i) :
    SpelledBy .long [w.extractLsb' 0 16, w.extractLsb' 16 16] i := by
  obtain ⟨op, x, dh, ah, bh, dl, al, bl, ⟨rfl, hread⟩ | ⟨rfl, hread⟩ | ⟨rfl, hread⟩⟩ := decodeLong_eq_some_cases h
  all_goals
    clear h
    simp only [longClass0, longClass1, longClass2] at hread
    split at hread
  all_goals try split_ifs at hread
  all_goals cases hread
  all_goals
    obtain rfl := eq_ofNat_of_toNat_eq (v := op) ‹_›
    constructor
    · simp [Instr.WellFormed, fitsUnsigned_toNat, fitsShift_shift, fitsSigned_sext]
    · rfl
    · simp_all [encode, longRRR, longRR6, longRR9, longRR10, longB10RR, longWords_eq, shiftAmount, immX_join, ofInt_sext,
        bits3_append_low, bits3_append_above, bits4_append_above, bits3_whole, bits4_whole]

/-- The decoder succeeds by a short match of the first halfword or a long match of the first word (R51). -/
theorem decode_eq_success_cases {bytes : List Byte} {i : Instr} {n : Nat} (h : decode bytes = .success i n) :
    (∃ b0 b1 rest, bytes = b0 :: b1 :: rest ∧ n = 2 ∧ decodeShort (wordOfBytes b0 b1) = some i) ∨
    (∃ b0 b1 b2 b3 rest, bytes = b0 :: b1 :: b2 :: b3 :: rest ∧ n = 4 ∧
      decodeLong (wordOfBytes b2 b3 ++ wordOfBytes b0 b1) = some i) := by
  unfold decode at h
  split at h
  case h_2 => cases h
  case h_1 b0 b1 rest =>
    split at h
    case h_1 j hj => cases h; exact .inl ⟨b0, b1, rest, rfl, rfl, hj⟩
    case h_2 =>
      split at h
      case h_2 => cases h
      case h_1 b2 b3 rest =>
        split at h
        case h_1 j hj => cases h; exact .inr ⟨b0, b1, b2, b3, rest, rfl, rfl, hj⟩
        case h_2 => cases h

/-- Settles O6: a short match is spelled by its halfword, a long match by its two halfwords. -/
theorem encodingADecodedInstructionGivesTheBytes : Obligations.EncodingADecodedInstructionGivesTheBytes := by
  intro bytes i n h
  obtain ⟨b0, b1, rest, rfl, rfl, hi⟩ | ⟨b0, b1, b2, b3, rest, rfl, rfl, hi⟩ := decode_eq_success_cases h
  · obtain ⟨hwf, hform, henc⟩ := spelledBy_of_decodeShort hi
    exact ⟨hwf, hform ▸ rfl, by simp [encodeBytes, henc]⟩
  · obtain ⟨hwf, hform, henc⟩ := spelledBy_of_decodeLong hi
    exact ⟨hwf, hform ▸ rfl, by simp [encodeBytes, henc]⟩

end Sys2Proof
end

section
/-!
PROOFS. The words that spell nothing (30_encoding.md R69), the slices R69 names being fields of the frames.
-/

namespace Sys2Proof

open Sys2Proof.Safety

/-! ## Slices of a halfword and of a long word as fields -/

theorem slice_slice {w j m k n : Nat} (v : BitVec w) (hk : k + n ≤ m) :
    (v.extractLsb' j m).extractLsb' k n = v.extractLsb' (j + k) n := by
  apply BitVec.eq_of_getLsbD_eq
  intro i hi
  simp only [BitVec.getLsbD_extractLsb', hi, show k + i < m by omega, Nat.add_assoc, decide_true, Bool.true_and]

namespace Frame

variable (f h : Frame)

theorem toHalf_bit15 : f.toHalf.extractLsb' 15 1 = f.l := congrArg Frame.l (ofHalf_toHalf f)
theorem toHalf_class : f.toHalf.extractLsb' 13 2 = f.cls := congrArg Frame.cls (ofHalf_toHalf f)
theorem toHalf_op : f.toHalf.extractLsb' 9 4 = f.op := congrArg Frame.op (ofHalf_toHalf f)
theorem toHalf_d : f.toHalf.extractLsb' 6 3 = f.d := congrArg Frame.d (ofHalf_toHalf f)
theorem toHalf_a : f.toHalf.extractLsb' 3 3 = f.a := congrArg Frame.a (ofHalf_toHalf f)
theorem toHalf_b : f.toHalf.extractLsb' 0 3 = f.b := congrArg Frame.b (ofHalf_toHalf f)

theorem toHalf_op_part {k n : Nat} (hk : k + n ≤ 4) : f.toHalf.extractLsb' (9 + k) n = f.op.extractLsb' k n := by
  rw [← toHalf_op, slice_slice _ hk]

theorem toHalf_ab : f.toHalf.extractLsb' 0 6 = f.a ++ f.b := by
  rw [← toHalf_a, ← toHalf_b]
  exact (bits_append f.toHalf 0 3 3).symm

theorem toHalf_top7 : f.toHalf.extractLsb' 9 7 = f.l ++ f.cls ++ f.op := by
  rw [← toHalf_bit15, ← toHalf_class, ← toHalf_op]
  exact ((congrArg (· ++ f.toHalf.extractLsb' 9 4) (bits_append f.toHalf 13 1 2)).trans
    (bits_append f.toHalf 9 3 4)).symm

end Frame
theorem append_slice_low {k n : Nat} (lo hi : Word) (hk : k + n ≤ 16) :
    (hi ++ lo).extractLsb' k n = lo.extractLsb' k n :=
  BitVec.extractLsb'_append_eq_of_add_le hk

theorem append_slice_high {k n : Nat} (lo hi : Word) : (hi ++ lo).extractLsb' (16 + k) n = hi.extractLsb' k n := by
  rw [BitVec.extractLsb'_append_eq_of_le (by omega), Nat.add_sub_cancel_left]

section
variable (f h : Frame)

theorem long_bit31 : (h.toHalf ++ f.toHalf).extractLsb' 31 1 = h.l :=
  (append_slice_high (k := 15) ..).trans h.toHalf_bit15
theorem long_classHigh : (h.toHalf ++ f.toHalf).extractLsb' 29 2 = h.cls :=
  (append_slice_high (k := 13) ..).trans h.toHalf_class
theorem long_X : (h.toHalf ++ f.toHalf).extractLsb' 25 4 = h.op :=
  (append_slice_high (k := 9) ..).trans h.toHalf_op
theorem long_X_low : (h.toHalf ++ f.toHalf).extractLsb' 25 1 = h.op.extractLsb' 0 1 :=
  (append_slice_high (k := 9) ..).trans (h.toHalf_op_part (k := 0) (by omega))
theorem long_X_high : (h.toHalf ++ f.toHalf).extractLsb' 26 3 = h.op.extractLsb' 1 3 :=
  (append_slice_high (k := 10) ..).trans (h.toHalf_op_part (k := 1) (by omega))
theorem long_aHigh : (h.toHalf ++ f.toHalf).extractLsb' 19 3 = h.a :=
  (append_slice_high (k := 3) ..).trans h.toHalf_a
theorem long_bHigh : (h.toHalf ++ f.toHalf).extractLsb' 16 3 = h.b :=
  (append_slice_high (k := 0) ..).trans h.toHalf_b
theorem long_abHigh : (h.toHalf ++ f.toHalf).extractLsb' 16 6 = h.a ++ h.b :=
  (append_slice_high (k := 0) ..).trans h.toHalf_ab
theorem long_bit15 : (h.toHalf ++ f.toHalf).extractLsb' 15 1 = f.l :=
  (append_slice_low _ _ (by omega)).trans f.toHalf_bit15
theorem long_class : (h.toHalf ++ f.toHalf).extractLsb' 13 2 = f.cls :=
  (append_slice_low _ _ (by omega)).trans f.toHalf_class
theorem long_op : (h.toHalf ++ f.toHalf).extractLsb' 9 4 = f.op :=
  (append_slice_low _ _ (by omega)).trans f.toHalf_op
theorem long_mode : (h.toHalf ++ f.toHalf).extractLsb' 9 2 = f.op.extractLsb' 0 2 :=
  (append_slice_low _ _ (by omega)).trans (f.toHalf_op_part (k := 0) (by omega))
theorem long_a : (h.toHalf ++ f.toHalf).extractLsb' 3 3 = f.a :=
  (append_slice_low _ _ (by omega)).trans f.toHalf_a
theorem long_b : (h.toHalf ++ f.toHalf).extractLsb' 0 3 = f.b :=
  (append_slice_low _ _ (by omega)).trans f.toHalf_b
theorem long_ab : (h.toHalf ++ f.toHalf).extractLsb' 0 6 = f.a ++ f.b :=
  (append_slice_low _ _ (by omega)).trans f.toHalf_ab

end

/-! ## The fields a class reads nothing from -/

theorem exists_eq_ofNat {w : Nat} (v : BitVec w) : ∃ n < 2 ^ w, v = BitVec.ofNat w n :=
  ⟨v.toNat, v.isLt, eq_ofNat_of_toNat_eq rfl⟩

theorem ite_some_eq_none_iff {c : Prop} [Decidable c] {i : Instr} {o : Option Instr} :
    (if c then some i else o) = none ↔ ¬ c ∧ o = none := by
  split_ifs with hc <;> simp [hc]

/-- The X of a class that assigns 0 and 1 only (R69). -/
theorem two_le_X_iff (x : BitVec 4) : 2 ≤ x.toNat ↔ x ≠ 0#4 ∧ x ≠ 1#4 := by revert x; decide

/-- The X of AND, OR or XOR is 0, that of their immediate forms ends in a 1 (R69). -/
theorem reserved_immX_iff (x : BitVec 4) :
    (x.extractLsb' 0 1 = 0#1 ∧ ¬ x.extractLsb' 1 3 = 0#3) ↔ x ≠ 0#4 ∧ x.extractLsb' 0 1 ≠ 1#1 := by
  revert x; decide

variable (l : BitVec 1) (cls : BitVec 2) (op x : BitVec 4) (d a b dh ah bh dl al bl : BitVec 3)

theorem shortClass0_eq_none_iff : shortClass0 ⟨l, cls, op, d, a, b⟩ = none ↔ op = 9 ∧ b ≠ 0 := by
  obtain ⟨n, hn, rfl⟩ := exists_eq_ofNat op
  interval_cases n <;> simp [shortClass0]

theorem shortClass1_eq_none_iff : shortClass1 ⟨l, cls, op, d, a, b⟩ = none ↔ op.extractLsb' 0 2 = 3 := by
  obtain ⟨n, hn, rfl⟩ := exists_eq_ofNat op
  interval_cases n <;> simp [shortClass1]

theorem shortClass2_eq_none_iff : shortClass2 ⟨l, cls, op, d, a, b⟩ = none ↔
    10 ≤ op.toNat ∨ (op = 8 ∧ ¬ (a = 0 ∧ b = 0)) ∨ (op = 9 ∧ a ≠ 0) := by
  obtain ⟨n, hn, rfl⟩ := exists_eq_ofNat op
  interval_cases n <;> simp [shortClass2]

theorem longClass0_eq_none_iff : longClass0 ⟨l, cls, op, dl, al, bl⟩ ⟨0, 0, x, dh, ah, bh⟩ = none ↔
    (op.toNat ∈ [0x0, 0x6, 0x7, 0x8, 0x9, 0xC, 0xD, 0xE] ∧ x ≠ 0) ∨
    (op.toNat ∈ [0x1, 0x2] ∧ 2 ≤ x.toNat) ∨
    (op.toNat ∈ [0x3, 0x4, 0x5] ∧ x.extractLsb' 0 1 = 0 ∧ x.extractLsb' 1 3 ≠ 0) ∨
    (op = 9 ∧ ¬ (bh = 0 ∧ bl = 0)) := by
  obtain ⟨n, hn, rfl⟩ := exists_eq_ofNat op
  interval_cases n <;> simp [longClass0, ite_some_eq_none_iff, two_le_X_iff, reserved_immX_iff]
  -- MOV is left, whose unused field the two sides place differently.
  tauto

theorem longClass1_eq_none_iff : longClass1 ⟨l, cls, op, dl, al, bl⟩ ⟨0, 0, x, dh, ah, bh⟩ = none ↔
    op.extractLsb' 0 2 = 3 := by
  obtain ⟨n, hn, rfl⟩ := exists_eq_ofNat op
  interval_cases n <;> simp [longClass1]

theorem longClass2_eq_none_iff : longClass2 ⟨l, cls, op, dl, al, bl⟩ ⟨0, 0, x, dh, ah, bh⟩ = none ↔
    10 ≤ op.toNat ∨ (op = 8 ∧ (x ≠ 0 ∨ ¬ (ah = 0 ∧ bh = 0 ∧ al = 0 ∧ bl = 0))) ∨
    (op = 9 ∧ (x ≠ 0 ∨ ¬ (ah = 0 ∧ al = 0))) := by
  obtain ⟨n, hn, rfl⟩ := exists_eq_ofNat op
  interval_cases n <;> simp [longClass2]
  -- JMP and JAL are left, whose unused fields the two sides group differently.
  all_goals tauto


/-! ## The lists of R69 -/

theorem append_eq_zero_iff {m n : Nat} (u : BitVec m) (v : BitVec n) : u ++ v = 0#(m + n) ↔ u = 0#m ∧ v = 0#n := by
  constructor
  · intro h
    have hu := congrArg (BitVec.extractLsb' n m) h
    have hv := congrArg (BitVec.extractLsb' 0 n) h
    rw [BitVec.extractLsb'_append_eq_left] at hu
    rw [BitVec.extractLsb'_append_eq_right] at hv
    simpa using And.intro hu hv
  · rintro ⟨rfl, rfl⟩
    exact BitVec.zero_append_zero

theorem class_cases : cls = 0 ∨ cls = 1 ∨ cls = 2 ∨ cls = 3 := by revert cls; decide

/-- R69's short list as conditions on the fields. -/
theorem decodeShort_eq_none_iff : decodeShort (shortBits cls op d a b) = none ↔
    cls = 3 ∨ (cls = 1 ∧ op.extractLsb' 0 2 = 3) ∨ (cls = 2 ∧ op.toNat ≥ 0xA) ∨ (cls = 0 ∧ op = 9 ∧ b ≠ 0) ∨
    (cls = 2 ∧ op = 8 ∧ ¬ (a = 0 ∧ b = 0)) ∨ (cls = 2 ∧ op = 9 ∧ a ≠ 0) := by
  obtain rfl | rfl | rfl | rfl := class_cases cls
  · rw [decodeShort_class0, shortClass0_eq_none_iff]
    simp
  · rw [decodeShort_class1, shortClass1_eq_none_iff]
    simp
  · rw [decodeShort_class2, shortClass2_eq_none_iff]
    simp
  · exact iff_of_true (decodeShort_toHalf ⟨0, 3, op, d, a, b⟩) (.inl rfl)

/-- R69's long list as conditions on the fields, bit 31 and bits 30:29 clear. -/
theorem decodeLong_eq_none_iff : decodeLong (longBits cls op x dh ah bh dl al bl) = none ↔
    cls = 3 ∨
    (cls = 0 ∧ op.toNat ∈ [0x0, 0x6, 0x7, 0x8, 0x9, 0xC, 0xD, 0xE] ∧ x ≠ 0) ∨
    (cls = 0 ∧ op.toNat ∈ [0x1, 0x2] ∧ x.toNat ≥ 2) ∨
    (cls = 0 ∧ op.toNat ∈ [0x3, 0x4, 0x5] ∧ x.extractLsb' 0 1 = 0 ∧ x.extractLsb' 1 3 ≠ 0) ∨
    (cls = 0 ∧ op = 9 ∧ ¬ (bh = 0 ∧ bl = 0)) ∨
    (cls = 1 ∧ op.extractLsb' 0 2 = 3) ∨
    (cls = 2 ∧ op.toNat ≥ 0xA) ∨
    (cls = 2 ∧ op = 8 ∧ (x ≠ 0 ∨ ¬ ((ah = 0 ∧ bh = 0) ∧ al = 0 ∧ bl = 0))) ∨
    (cls = 2 ∧ op = 9 ∧ (x ≠ 0 ∨ ¬ (ah = 0 ∧ al = 0))) := by
  obtain rfl | rfl | rfl | rfl := class_cases cls
  · rw [decodeLong_class0, longClass0_eq_none_iff]
    simp
  · rw [decodeLong_class1, longClass1_eq_none_iff]
    simp
  · rw [decodeLong_class2, longClass2_eq_none_iff]
    simp
  · refine iff_of_true ?_ (.inl rfl)
    rw [longBits_eq_halfwords, decodeLong_toHalf]
    rfl

/-- Class and opcode together, as R69 writes them with bit 15 clear. -/
theorem top7_eq_iff : (0#1 ++ cls ++ op = 0b0001001#7 ↔ cls = 0 ∧ op = 9) ∧
    (0#1 ++ cls ++ op = 0b0101000#7 ↔ cls = 2 ∧ op = 8) ∧ (0#1 ++ cls ++ op = 0b0101001#7 ↔ cls = 2 ∧ op = 9) := by
  revert cls op; decide

/-- Settles O9: R69's conditions read as conditions on the fields are those of the three class tables. -/
theorem unmatchedShortWords : Obligations.UnmatchedShortWords := by
  intro w hbit15
  obtain ⟨⟨l, cls, op, d, a, b⟩, rfl⟩ := exists_frame w
  rw [Frame.toHalf_bit15] at hbit15
  obtain rfl : l = 0 := hbit15
  have hop2 := Frame.toHalf_op_part ⟨0, cls, op, d, a, b⟩ (show 0 + 2 ≤ 4 by omega)
  have hab : a ++ b = 0#6 ↔ a = 0 ∧ b = 0 := append_eq_zero_iff a b
  obtain ⟨hmov, hjmp, hjal⟩ := top7_eq_iff cls op
  refine (decodeShort_eq_none_iff cls op d a b).trans ?_
  simp only [Frame.toHalf_class, Frame.toHalf_top7, Frame.toHalf_op, hop2, Frame.toHalf_a, Frame.toHalf_b,
    Frame.toHalf_ab]
  change _ ↔ _ ∨ _ ∨ _ ∨ (0#1 ++ cls ++ op = 0b0001001#7 ∧ _) ∨ (0#1 ++ cls ++ op = 0b0101000#7 ∧ ¬ a ++ b = 0#6) ∨
    (0#1 ++ cls ++ op = 0b0101001#7 ∧ _)
  rw [hmov, hjmp, hjal, hab]
  simp only [and_assoc]

/-- A word with bit 31 or one of bits 30:29 set is no long form (R54). -/
theorem decodeLong_eq_none_of_frame (f h : Frame) (hframe : h.l = 1 ∨ h.cls ≠ 0) :
    decodeLong (h.toHalf ++ f.toHalf) = none := by
  rw [decodeLong_toHalf, if_neg]
  rintro ⟨-, hl, hcls⟩
  rcases hframe with h1 | hne
  · rw [hl] at h1; cases h1
  · exact hne hcls

/-- Settles O10: as the short list, the conditions on the frame of the second halfword before it. -/
theorem unmatchedLongWords : Obligations.UnmatchedLongWords := by
  intro w hbit15
  obtain ⟨⟨l, cls, op, dl, al, bl⟩, ⟨lh, clsh, x, dh, ah, bh⟩, rfl⟩ := exists_frames w
  rw [long_bit15] at hbit15
  obtain rfl : l = 1 := hbit15
  simp only [long_bit31, long_classHigh, long_X, long_X_low, long_X_high, long_aHigh, long_bHigh, long_abHigh,
    long_class, long_op, long_mode, long_a, long_b, long_ab]
  by_cases hbit31 : lh = 1
  · exact iff_of_true (decodeLong_eq_none_of_frame _ _ (.inl hbit31)) (.inl hbit31)
  by_cases hclass : clsh = 0
  · obtain rfl : lh = 0 := by revert lh; decide
    subst hclass
    have hb : bh ++ bl = 0#6 ↔ bh = 0 ∧ bl = 0 := append_eq_zero_iff bh bl
    have ha : ah ++ al = 0#6 ↔ ah = 0 ∧ al = 0 := append_eq_zero_iff ah al
    have hab : ah ++ bh ++ (al ++ bl) = 0#12 ↔ (ah = 0 ∧ bh = 0) ∧ al = 0 ∧ bl = 0 :=
      (append_eq_zero_iff (ah ++ bh) (al ++ bl)).trans
        (and_congr (append_eq_zero_iff ah bh) (append_eq_zero_iff al bl))
    rw [← longBits_eq_halfwords, decodeLong_eq_none_iff]
    simp only [ne_eq, hb, ha, hab, not_true_eq_false, false_or, hbit31]
  · exact iff_of_true (decodeLong_eq_none_of_frame _ _ (.inr hclass)) (.inr (.inl hclass))

end Sys2Proof
end

section
/-!
PROOFS. The decoder and the opcode map (30_encoding.md R53 to R56, R65 to R67): the frame tells the length, and the
rows of the map match exactly the words the class tables read.
-/

namespace Sys2Proof

open Sys2Proof.Safety

theorem shortBits_bit15 (cls : BitVec 2) (op : BitVec 4) (d a b : BitVec 3) :
    (shortBits cls op d a b).getLsbD 15 = false := by
  simp only [shortBits, BitVec.getLsbD_append]
  rfl

theorem longBits_bit15 (cls : BitVec 2) (op x : BitVec 4) (dh ah bh dl al bl : BitVec 3) :
    (longBits cls op x dh ah bh dl al bl).getLsbD 15 = true := by
  simp only [longBits, BitVec.getLsbD_append]
  rfl

theorem longBits_bit31 (cls : BitVec 2) (op x : BitVec 4) (dh ah bh dl al bl : BitVec 3) :
    (longBits cls op x dh ah bh dl al bl).getLsbD 31 = false := by
  simp only [longBits, BitVec.getLsbD_append]
  rfl

/-- The first halfword of a long form is no short form: its bit 15 is set. -/
theorem decodeShort_low_longBits (cls : BitVec 2) (op x : BitVec 4) (dh ah bh dl al bl : BitVec 3) :
    decodeShort ((longBits cls op x dh ah bh dl al bl).extractLsb' 0 16) = none := by
  rw [longBits_eq_halfwords, long_low, decodeShort_toHalf]
  rfl

theorem eq_shortBits_of_decodeShort {w : Word} {i : Instr} (h : decodeShort w = some i) :
    ∃ cls op d a b, w = shortBits cls op d a b := by
  obtain ⟨op, d, a, b, ⟨hw, -⟩ | ⟨hw, -⟩ | ⟨hw, -⟩⟩ := decodeShort_eq_some_cases h
  all_goals exact ⟨_, _, _, _, _, hw⟩

theorem eq_longBits_of_decodeLong {w : BitVec 32} {i : Instr} (h : decodeLong w = some i) :
    ∃ cls op x dh ah bh dl al bl, w = longBits cls op x dh ah bh dl al bl := by
  obtain ⟨op, x, dh, ah, bh, dl, al, bl, ⟨hw, -⟩ | ⟨hw, -⟩ | ⟨hw, -⟩⟩ := decodeLong_eq_some_cases h
  all_goals exact ⟨_, _, _, _, _, _, _, _, _, hw⟩

/-- Settles O11: a word that decodes is built from the frame of its form. -/
theorem bit15TellsTheLength : Obligations.Bit15TellsTheLength := by
  refine ⟨?short, ?long⟩
  case short =>
    intro w i h
    obtain ⟨cls, op, d, a, b, rfl⟩ := eq_shortBits_of_decodeShort h
    exact ⟨shortBits_bit15 .., (spelledBy_of_decodeShort h).form_eq⟩
  case long =>
    intro w i h
    have hform : i.form = .long := (spelledBy_of_decodeLong h).form_eq
    obtain ⟨cls, op, x, dh, ah, bh, dl, al, bl, rfl⟩ := eq_longBits_of_decodeLong h
    exact ⟨longBits_bit15 .., longBits_bit31 .., hform, decodeShort_low_longBits ..⟩

/-! ## Matching a row, field by field -/

theorem Frame.ofHalf_and (w m : Word) : Frame.ofHalf (w &&& m) =
    ⟨(ofHalf w).l &&& (ofHalf m).l, (ofHalf w).cls &&& (ofHalf m).cls, (ofHalf w).op &&& (ofHalf m).op,
      (ofHalf w).d &&& (ofHalf m).d, (ofHalf w).a &&& (ofHalf m).a, (ofHalf w).b &&& (ofHalf m).b⟩ := by
  simp only [Frame.ofHalf, BitVec.extractLsb'_and]

/-- A halfword matches a pattern under a mask when each field does. -/
theorem Frame.toHalf_match_iff (f : Frame) (m p : Word) : f.toHalf &&& m = p ↔
    f.l &&& (ofHalf m).l = (ofHalf p).l ∧ f.cls &&& (ofHalf m).cls = (ofHalf p).cls ∧
    f.op &&& (ofHalf m).op = (ofHalf p).op ∧ f.d &&& (ofHalf m).d = (ofHalf p).d ∧
    f.a &&& (ofHalf m).a = (ofHalf p).a ∧ f.b &&& (ofHalf m).b = (ofHalf p).b := by
  have hframes : f.toHalf &&& m = p ↔ Frame.ofHalf (f.toHalf &&& m) = Frame.ofHalf p :=
    ⟨congrArg _, Frame.ofHalf_inj⟩
  rw [hframes, Frame.ofHalf_and, Frame.ofHalf_toHalf]
  cases hp : Frame.ofHalf p
  simp only [Frame.mk.injEq]

/-- A long word matches when both halfwords do. -/
theorem append_match_iff (lo hi : Word) (m p : BitVec 32) : (hi ++ lo) &&& m = p ↔
    lo &&& m.extractLsb' 0 16 = p.extractLsb' 0 16 ∧ hi &&& m.extractLsb' 16 16 = p.extractLsb' 16 16 := by
  constructor
  · rintro rfl
    simp only [BitVec.extractLsb'_and, long_low, long_high, true_and]
  · rintro ⟨hlo, hhi⟩
    rw [← long_append (_ &&& m), BitVec.extractLsb'_and, BitVec.extractLsb'_and, long_low, long_high, hlo, hhi,
      long_append]

theorem shortBits_eq_toHalf (cls : BitVec 2) (op : BitVec 4) (d a b : BitVec 3) :
    shortBits cls op d a b = Frame.toHalf ⟨0, cls, op, d, a, b⟩ := rfl

theorem exists_row_of_find {n : Nat} {table : List (EncodingRow n)} {o : Opcode} {row : EncodingRow n} {w : BitVec n}
    (hfind : table.find? (·.opcode == o) = some row) (hmatch : w &&& row.mask = row.pattern) :
    ∃ row ∈ table, row.opcode = o ∧ w &&& row.mask = row.pattern :=
  ⟨row, List.mem_of_find?_eq_some hfind, by simpa using List.find?_some hfind, hmatch⟩

/-- The X of ANDI, ORI or XORI in the map: the low bit is 1, the rest free. -/
theorem immX_match_iff (x : BitVec 4) : x &&& 1#4 = 1#4 ↔ ¬ x = 0#4 ∧ x.extractLsb' 0 1 = 1#1 := by
  revert x; decide

theorem and_ones1 (v : BitVec 1) : v &&& 1#1 = v := BitVec.and_allOnes
theorem and_ones2 (v : BitVec 2) : v &&& 3#2 = v := BitVec.and_allOnes
theorem and_ones3 (v : BitVec 3) : v &&& 7#3 = v := BitVec.and_allOnes
theorem and_ones4 (v : BitVec 4) : v &&& 15#4 = v := BitVec.and_allOnes

/-- A row's match leaves only the fields its mask leaves free, and the row's class table reads them. -/
theorem opcode_decodeShort_of_row {row : EncodingRow 16} (hrow : row ∈ shortTable) {w : Word}
    (hmatch : w &&& row.mask = row.pattern) : (decodeShort w).map Instr.opcode = some row.opcode := by
  obtain ⟨⟨l, cls, op, d, a, b⟩, rfl⟩ := exists_frame w
  simp only [shortTable, List.cons_append, List.nil_append] at hrow
  fin_cases hrow
  all_goals
    simp [Frame.toHalf_match_iff, Frame.ofHalf, and_ones1, and_ones2, and_ones3, and_ones4] at hmatch
    simp [hmatch, decodeShort_toHalf, shortClass0, shortClass1, shortClass2, Instr.opcode]

theorem opcode_decodeLong_of_row {row : EncodingRow 32} (hrow : row ∈ longTable) {w : BitVec 32}
    (hmatch : w &&& row.mask = row.pattern) : (decodeLong w).map Instr.opcode = some row.opcode := by
  obtain ⟨⟨l, cls, op, dl, al, bl⟩, ⟨lh, clsh, x, dh, ah, bh⟩, rfl⟩ := exists_frames w
  simp only [longTable, List.cons_append, List.nil_append] at hrow
  fin_cases hrow
  all_goals
    simp [append_match_iff, Frame.toHalf_match_iff, Frame.ofHalf, and_ones1, and_ones2, and_ones3, and_ones4,
      immX_match_iff] at hmatch
    simp [hmatch, decodeLong_toHalf, longClass0, longClass1, longClass2, Instr.opcode]

/-- By the rows of the three class tables: each has a row of the map with its class and opcode. -/
theorem exists_row_of_decodeShort {w : Word} {i : Instr} (h : decodeShort w = some i) :
    ∃ row ∈ shortTable, row.opcode = i.opcode ∧ w &&& row.mask = row.pattern := by
  obtain ⟨op, d, a, b, ⟨rfl, hread⟩ | ⟨rfl, hread⟩ | ⟨rfl, hread⟩⟩ := decodeShort_eq_some_cases h
  all_goals
    clear h
    simp only [shortClass0, shortClass1, shortClass2] at hread
    split at hread
  all_goals try split_ifs at hread
  all_goals cases hread
  all_goals
    obtain rfl := eq_ofNat_of_toNat_eq (v := op) ‹_›
    refine exists_row_of_find rfl ?_
    simp_all [shortBits_eq_toHalf, Frame.toHalf_match_iff, Frame.ofHalf]

theorem exists_row_of_decodeLong {w : BitVec 32} {i : Instr} (h : decodeLong w = some i) :
    ∃ row ∈ longTable, row.opcode = i.opcode ∧ w &&& row.mask = row.pattern := by
  obtain ⟨op, x, dh, ah, bh, dl, al, bl, ⟨rfl, hread⟩ | ⟨rfl, hread⟩ | ⟨rfl, hread⟩⟩ := decodeLong_eq_some_cases h
  all_goals
    clear h
    simp only [longClass0, longClass1, longClass2] at hread
    split at hread
  all_goals try split_ifs at hread
  all_goals cases hread
  all_goals
    obtain rfl := eq_ofNat_of_toNat_eq (v := op) ‹_›
    refine exists_row_of_find rfl ?_
    simp_all [longBits_eq_halfwords, append_match_iff, Frame.toHalf_match_iff, Frame.ofHalf, immX_match_iff]

/-- Settles O7: a decoded word matches the row of its instruction, and a matching row says what is decoded. -/
theorem decodedInstructionsAreTheMatchingRows : Obligations.DecodedInstructionsAreTheMatchingRows := by
  refine ⟨fun w o => ⟨?shortRow, ?shortRead⟩, fun w o => ⟨?longRow, ?longRead⟩⟩
  case shortRow =>
    rintro ⟨i, h, rfl⟩
    exact exists_row_of_decodeShort h
  case shortRead =>
    rintro ⟨row, hrow, rfl, hmatch⟩
    exact Option.map_eq_some_iff.mp (opcode_decodeShort_of_row hrow hmatch)
  case longRow =>
    rintro ⟨i, h, rfl⟩
    exact exists_row_of_decodeLong h
  case longRead =>
    rintro ⟨row, hrow, rfl, hmatch⟩
    exact Option.map_eq_some_iff.mp (opcode_decodeLong_of_row hrow hmatch)

/-- Settles O8: each pair of rows differs in a bit that both masks fix. -/
theorem noTwoRowsOverlap : Obligations.NoTwoRowsOverlap := by
  unfold Obligations.NoTwoRowsOverlap
  decide

/-- Settles O1: each is the decoder's answer on closed bytes. -/
theorem specWordsDecode : Obligations.SpecWordsDecode := by
  refine ⟨?_, ?_, ?_, ?_, ?_, ?_, ?_, ?_, ?_, ?_, ?_⟩ <;> rfl

end Sys2Proof
end

section
/-!
PROOFS. Fetch and the step (40_execution_cycle.md R90 to R93): the bytes a fetch gives, and the step on what they
decode to.
-/

namespace Sys2Proof.Machine

open Sys2Proof.Safety

theorem State.codeRead_of_lt (s : State) {a : Nat} (h : a < 131072) : s.codeRead a = some (s.codeMem.read a) :=
  if_pos h

theorem State.codeRead_of_le (s : State) {a : Nat} (h : 131072 ≤ a) : s.codeRead a = none :=
  if_neg (Nat.not_lt.mpr h)

/-- Below the last word of code memory all four bytes exist (R91). -/
theorem State.fetch_of_pc_ne_top (s : State) (h : s.pc ≠ 0xFFFF) :
    s.fetch = [s.codeMem.read (2 * s.pc.toNat), s.codeMem.read (2 * s.pc.toNat + 1),
      s.codeMem.read (2 * s.pc.toNat + 2), s.codeMem.read (2 * s.pc.toNat + 3)] := by
  have hpc : s.pc.toNat < 65535 := by bv_omega
  simp only [State.fetch, State.fetchAddrs, List.filterMap_cons, List.filterMap_nil,
    s.codeRead_of_lt (show 2 * s.pc.toNat < 131072 by omega), s.codeRead_of_lt (show 2 * s.pc.toNat + 1 < 131072 by omega),
    s.codeRead_of_lt (show 2 * s.pc.toNat + 2 < 131072 by omega),
    s.codeRead_of_lt (show 2 * s.pc.toNat + 3 < 131072 by omega)]

/-- At the last word of code memory two bytes exist (R91). -/
theorem State.fetch_of_pc_top (s : State) (h : s.pc = 0xFFFF) :
    s.fetch = [s.codeMem.read 0x1FFFE, s.codeMem.read 0x1FFFF] := by
  have hpc : s.pc.toNat = 65535 := by rw [h]; rfl
  simp only [State.fetch, State.fetchAddrs, List.filterMap_cons, List.filterMap_nil, hpc,
    s.codeRead_of_lt (show 2 * 65535 < 131072 by omega), s.codeRead_of_lt (show 2 * 65535 + 1 < 131072 by omega),
    s.codeRead_of_le (show 131072 ≤ 2 * 65535 + 2 by omega), s.codeRead_of_le (show 131072 ≤ 2 * 65535 + 3 by omega)]

/-- Settles O15: the two cases of R91. -/
theorem fetchStopsAtTheTopOfCodeMemory : Obligations.FetchStopsAtTheTopOfCodeMemory :=
  fun s => ⟨s.fetch_of_pc_ne_top, s.fetch_of_pc_top⟩

/-! ## The step on a decoded instruction and on a failure -/

theorem step_of_decode_success {s : State} {i : Instr} {n : Nat} (hrun : s.halted = false)
    (hdecode : decode s.fetch = .success i n) : step s = exec i s := by
  simp [step, hrun, hdecode]

theorem step_of_decode_failure {s : State} {r : DecodeFailure} (hrun : s.halted = false)
    (hdecode : decode s.fetch = .failure r) : step s = .next (s.decodeFailed r.size) := by
  simp [step, hrun, hdecode]

theorem step_of_halted {s : State} (h : s.halted = true) : step s = .fault .halted := by
  simp [step, h]

/-- Settles O12, by the branch of `step` that a running core with a successful decode takes. -/
theorem stepRunsTheDecodedInstruction : Obligations.StepRunsTheDecodedInstruction :=
  fun _ _ _ hrun hdecode => step_of_decode_success hrun hdecode

/-- Settles O17: the failed step keeps pc and code memory, so the same bytes fail again. -/
theorem aDecodeFailureChangesNothing : Obligations.ADecodeFailureChangesNothing := by
  intro s r hrun hdecode
  refine ⟨s.decodeFailed r.size, step_of_decode_failure hrun hdecode, rfl, rfl, rfl, ?again⟩
  case again =>
    have hdecode' : decode (s.decodeFailed r.size).fetch = .failure r := by
      rw [State.decodeFailed_fetch]; exact hdecode
    exact step_of_decode_failure (s := s.decodeFailed r.size) hrun hdecode'

/-- Settles O21: each policy's effect, and the step's first branch. -/
theorem anAbortedCoreAcceptsNoStep : Obligations.AnAbortedCoreAcceptsNoStep := by
  refine ⟨?trap, ?abort⟩
  case trap => exact fun s => ⟨_, rfl, rfl, rfl, rfl⟩
  case abort =>
    intro s t h
    cases h
    exact ⟨rfl, step_of_halted rfl⟩

/-! ## An instruction that stands in code memory -/

theorem length_encodeBytes (i : Instr) : (encodeBytes i).length = i.form.bytes := by
  cases i <;> rfl

/-- The four bytes from the pc on, of which a long instruction at the pc takes all and a short one the first two. -/
def State.bytesAtPc (s : State) (n : Nat) : List Byte := (List.range n).map fun k => s.codeMem.read (2 * s.pc.toNat + k)

theorem encodeBytes_eq_bytesAtPc {s : State} {i : Instr}
    (hbytes : ∀ k (hk : k < (encodeBytes i).length), s.codeMem.read (2 * s.pc.toNat + k) = (encodeBytes i)[k]) :
    encodeBytes i = s.bytesAtPc i.form.bytes := by
  apply List.ext_getElem
  · simp [State.bytesAtPc, length_encodeBytes]
  · intro k hk _
    simp [State.bytesAtPc, hbytes k hk]

/-- A fetch begins with the bytes at the pc, as many of an instruction as lie below the top. -/
theorem State.fetch_eq_bytesAtPc_append (s : State) (f : Form) (hfits : 2 * s.pc.toNat + f.bytes ≤ 131072) :
    ∃ rest, s.fetch = s.bytesAtPc f.bytes ++ rest := by
  by_cases hpc : s.pc = 0xFFFF
  · have hnat : s.pc.toNat = 65535 := by rw [hpc]; rfl
    cases f with
    | short => exact ⟨[], by simp [s.fetch_of_pc_top hpc, State.bytesAtPc, Form.bytes, hnat, List.range_succ]⟩
    | long => simp only [Form.bytes] at hfits; omega
  · rw [s.fetch_of_pc_ne_top hpc]
    cases f with
    | short => exact ⟨_, rfl⟩
    | long => exact ⟨[], rfl⟩

/-- Settles O13: the fetched bytes begin with the encoding, and decoding an encoding gives the instruction back. -/
theorem stepRunsTheInstructionInCodeMemory : Obligations.StepRunsTheInstructionInCodeMemory := by
  intro s i hrun hwf hfits hbytes
  obtain ⟨rest, hfetch⟩ := s.fetch_eq_bytesAtPc_append i.form hfits
  rw [← encodeBytes_eq_bytesAtPc hbytes] at hfetch
  exact step_of_decode_success hrun (hfetch ▸ decodingAnEncodingGivesItBack i rest hwf)

/-! ## Section loads -/

theorem loadSection_eq_some_iff {limit address : Nat} {bytes : List Byte} {m m' : Memory} :
    loadSection limit bytes address m = some m' ↔
      address + bytes.length ≤ limit ∧ m' = m.writeAll address bytes := by
  simp [loadSection, eq_comm]

theorem loadSection_eq_none_iff {limit address : Nat} {bytes : List Byte} {m : Memory} :
    loadSection limit bytes address m = none ↔ limit < address + bytes.length := by
  simp [loadSection]

theorem State.loadCodeSection_eq_some_iff {s t : State} {bytes : List Byte} {address : Nat} :
    s.loadCodeSection bytes address = some t ↔
      address + bytes.length ≤ 131072 ∧ t = { s with codeMem := s.codeMem.writeAll address bytes } := by
  constructor
  · intro h
    obtain ⟨m, hm, rfl⟩ := Option.map_eq_some_iff.mp h
    obtain ⟨hfits, rfl⟩ := loadSection_eq_some_iff.mp hm
    exact ⟨hfits, rfl⟩
  · rintro ⟨hfits, rfl⟩
    exact Option.map_eq_some_iff.mpr ⟨_, loadSection_eq_some_iff.mpr ⟨hfits, rfl⟩, rfl⟩

theorem State.loadDataSection_eq_some_iff {s t : State} {bytes : List Byte} {address : Nat} :
    s.loadDataSection bytes address = some t ↔
      address + bytes.length ≤ 65536 ∧ t = { s with dataMem := s.dataMem.writeAll address bytes } := by
  constructor
  · intro h
    obtain ⟨m, hm, rfl⟩ := Option.map_eq_some_iff.mp h
    obtain ⟨hfits, rfl⟩ := loadSection_eq_some_iff.mp hm
    exact ⟨hfits, rfl⟩
  · rintro ⟨hfits, rfl⟩
    exact Option.map_eq_some_iff.mpr ⟨_, loadSection_eq_some_iff.mpr ⟨hfits, rfl⟩, rfl⟩

/-- Settles O54: when each load is refused, and what `writeAll` wrote when it is not. -/
theorem sectionLoadsWriteTheirBytes : Obligations.SectionLoadsWriteTheirBytes := by
  intro s bytes address
  refine ⟨?codeRefused, ?dataRefused, ?code, ?data⟩
  case codeRefused => simp [State.loadCodeSection, loadSection_eq_none_iff, Config.codeBytes]
  case dataRefused => simp [State.loadDataSection, loadSection_eq_none_iff, Config.dataBytes]
  case code =>
    intro t h
    obtain ⟨-, rfl⟩ := State.loadCodeSection_eq_some_iff.mp h
    exact ⟨rfl, Memory.read_writeAll bytes s.codeMem address⟩
  case data =>
    intro t h
    obtain ⟨-, rfl⟩ := State.loadDataSection_eq_some_iff.mp h
    exact ⟨rfl, Memory.read_writeAll bytes s.dataMem address⟩

/-- Settles O14: the load puts the encoding in place at the pc, which it does not move. -/
theorem aLoadedInstructionRunsNext : Obligations.ALoadedInstructionRunsNext := by
  intro s t i hrun hwf hload
  obtain ⟨hfits, rfl⟩ := State.loadCodeSection_eq_some_iff.mp hload
  refine stepRunsTheInstructionInCodeMemory _ i hrun hwf (length_encodeBytes i ▸ hfits) ?bytes
  case bytes =>
    intro k hk
    simp [Memory.read_writeAll, hk]

/-! ## A long form at the top -/

theorem decodeShort_eq_none_of_bit15 {w : Word} (h : w.getLsbD 15 = true) : decodeShort w = none := by
  by_contra hne
  obtain ⟨i, hi⟩ := Option.ne_none_iff_exists'.mp hne
  have hclear := (bit15TellsTheLength.1 w i hi).1
  rw [h] at hclear
  cases hclear

/-- Settles O16: bit 15 of the first halfword shuts out a short form, and a long form wants two more bytes. -/
theorem aLongHalfwordAtTheTopIsInvalid : Obligations.ALongHalfwordAtTheTopIsInvalid := by
  intro s hrun hpc hbit7
  have hbit15 : (s.codeMem.read 0x1FFFF ++ s.codeMem.read 0x1FFFE).getLsbD 15 = true := by
    rw [BitVec.getLsbD_append]
    exact hbit7
  have hdecode : decode s.fetch = .failure .fewerThanFourBytes := by
    rw [s.fetch_of_pc_top hpc]
    exact decode_of_no_short_of_length_lt_four (decodeShort_eq_none_of_bit15 hbit15) (by decide)
  exact step_of_decode_failure hrun hdecode

end Sys2Proof.Machine
end

section
/-!
PROOFS. What an instruction leaves unchanged. The states an instruction can end in are listed once, with the registers
and data bytes that it may write; each frame fact is then one case for each of them.
-/

namespace Sys2Proof.Machine

open Sys2Proof.Safety

/-- The bytes an access of a size takes, the second of a word wrapping (20_memory.md R37). -/
def accessBytes (sz : AccessSize) (a : Word) : List Word :=
  match sz with
  | .byte => [a]
  | .word => [a, a + 1]

/-- The states that executing `i` at `s` can end in. -/
inductive Ends (i : Instr) (s : State) : State → Prop where
  | result (f : Form) (rd : Reg) (v : Word) (hdest : rd ∈ mayWrite i) : Ends i s ((s.writeReg rd v).retire f)
  | arith (f : Form) (rd : Reg) (v : Word) (b : Bool) (hdest : rd ∈ mayWrite i) (hflag : writesV i = true) :
      Ends i s (((s.writeReg rd v).writeV b).retire f)
  | load (f : Form) (sz : AccessSize) (mode : AddrMode) (rd ra : Reg) (base val : Word) (hdest : rd ∈ mayWrite i)
      (hpointer : mode ≠ .plain → ra ∈ mayWrite i) : Ends i s ((loadWrite sz mode rd ra base val s).retire f)
  | store (f : Form) (sz : AccessSize) (mode : AddrMode) (rd : Reg) (a v : Word)
      (hpointer : mode ≠ .plain → rd ∈ mayWrite i) (hbytes : storedAt i s = accessBytes sz a) :
      Ends i s ((storePointer sz mode rd (s.memWrite a sz v)).retire f)
  | goTo (pc : Word) : Ends i s (s.commit pc .ok)
  | call (rb : Reg) (link pc : Word) (hlink : rb ∈ mayWrite i) : Ends i s ((s.writeReg rb link).commit pc .ok)
  | breakpoint (pc : Word) : Ends i s (s.commit pc .breakpoint)
  | quit (pc v : Word) (hnop : i.opcode = .nop) : Ends i s ((s.captureExit v).commit pc .quit)
  | stdout (f : Form) (b : Byte) (hnop : i.opcode = .nop) : Ends i s ((s.emitStdout b).retire f)
  | stderr (f : Form) (b : Byte) (hnop : i.opcode = .nop) : Ends i s ((s.emitStderr b).retire f)

theorem ends_of_nopCommand {i : Instr} {f : Form} {rd : Reg} {cmd : Nat} {s t : State} (hnop : i.opcode = .nop)
    (h : nopCommand f rd cmd s = .next t) : Ends i s t := by
  obtain ⟨-, rfl⟩ | ⟨-, rfl⟩ | ⟨-, rfl⟩ | ⟨-, rfl⟩ | ⟨-, rfl⟩ := (nopCommand_next f rd cmd s t).mp h
  · exact .breakpoint _
  · exact .quit _ _ hnop
  · exact .stdout _ _ hnop
  · exact .stderr _ _ hnop
  · exact .goTo _

/-- An instruction that answers a next state ends in one of the listed ones, by its shared operation. -/
theorem ends_of_exec {i : Instr} {s t : State} (h : exec i s = .next t) : Ends i s t := by
  cases i with
  | nopS | nopL => exact ends_of_nopCommand rfl h
  | andS | andL | orS | orL | xorS | xorL | andiL | oriL | xoriL
  | asrS | asrL | lslS | lslL | lsrS | lsrL | asriS | asriL | lsliS | lsliL | lsriS | lsriL
  | movS | movL | moviS | moviL =>
    cases h
    exact .result _ _ _ (.head _)
  | addS | addL | subS | subL | addiS | addiL | subiS | subiL | addcL | subcL =>
    cases h
    exact .arith _ _ _ _ (.head _) rfl
  | ldbS | ldbL | ldwS | ldwL =>
    cases h
    exact .load _ _ .plain _ _ _ _ (.head _) nofun
  | ldbPostincS | ldbPostincL | ldbPredecS | ldbPredecL | ldwPostincS | ldwPostincL | ldwPredecS | ldwPredecL =>
    cases h
    exact .load _ _ _ _ _ _ _ (.head _) fun _ => .tail _ (.head _)
  | stbS | stbL | stwS | stwL =>
    cases h
    exact .store _ _ .plain _ _ _ nofun rfl
  | stbPostincS | stbPostincL | stbPredecS | stbPredecL | stwPostincS | stwPostincL | stwPredecS | stwPredecL =>
    cases h
    exact .store _ _ _ _ _ _ (fun _ => .head _) rfl
  | braS | braL | jmpS | jmpL | beqS | beqL | bneS | bneL | bltsS | bltsL | bgtsS | bgtsL | bltuS | bltuL
  | bgtuS | bgtuL =>
    cases h
    exact .goTo _
  | balS | balL | jalS | jalL =>
    cases h
    exact .call _ _ _ (.head _)

/-! ## The registers-only updates of a load and of a store's pointer -/

section
variable (sz : AccessSize) (mode : AddrMode) (rd ra : Reg) (base val : Word) (s : State)

theorem loadWrite_frame : loadWrite sz mode rd ra base val s = { s with regs := (loadWrite sz mode rd ra base val s).regs } := by
  obtain ⟨regs, h⟩ := loadWrite_rest sz mode rd ra base val s
  rw [h]

theorem storePointer_frame : storePointer sz mode rd s = { s with regs := (storePointer sz mode rd s).regs } := by
  obtain ⟨regs, h⟩ := storePointer_rest sz mode rd s
  rw [h]

/-- A load writes its destination and, in a moving mode, its pointer. -/
theorem loadWrite_readReg_of_ne {q : Reg} (hrd : q ≠ rd) (hra : mode ≠ .plain → q ≠ ra) :
    (loadWrite sz mode rd ra base val s).readReg q = s.readReg q := by
  rw [loadWrite_readReg]
  cases mode with
  | plain => simp [hrd]
  | postinc => simp [hrd, hra]
  | predec => simp [hrd, hra]

/-- A store writes its pointer in a moving mode. -/
theorem storePointer_readReg_of_ne {q : Reg} (hrd : mode ≠ .plain → q ≠ rd) :
    (storePointer sz mode rd s).readReg q = s.readReg q := by
  rw [storePointer_readReg]
  cases mode with
  | plain => rfl
  | postinc => simp [hrd]
  | predec => simp [hrd]

/-- A store writes the bytes of its access. -/
theorem State.readData_memWrite_of_notMem {a v x : Word} (hx : x ∉ accessBytes sz a) :
    (s.memWrite a sz v).readData x = s.readData x := by
  rw [s.readData_memWrite]
  cases sz with
  | byte => simp_all [accessBytes]
  | word => simp_all [accessBytes]

end

/-! ## The frame of every instruction -/

section
variable {i : Instr} {s t : State}

theorem Ends.v_eq (h : Ends i s t) (hflag : writesV i = false) : t.v = s.v := by
  cases h with
  | arith f rd v b hdest hflag' => rw [hflag] at hflag'; cases hflag'
  | load => rw [loadWrite_frame]; rfl
  | store => rw [storePointer_frame]; exact s.memWrite_v ..
  | _ => rfl

theorem Ends.readReg_eq (h : Ends i s t) {r : Reg} (hr : r ∉ mayWrite i) : t.readReg r = s.readReg r := by
  have ne_of_mem {q : Reg} (hq : q ∈ mayWrite i) : r ≠ q := fun e => hr (e ▸ hq)
  cases h with
  | result f rd v hdest => simp [ne_of_mem hdest]
  | arith f rd v b hdest => simp [ne_of_mem hdest]
  | load f sz mode rd ra base val hdest hpointer =>
    exact loadWrite_readReg_of_ne _ _ _ _ _ _ _ (ne_of_mem hdest) fun hmode => ne_of_mem (hpointer hmode)
  | store f sz mode rd a v hpointer =>
    exact (storePointer_readReg_of_ne _ _ _ _ fun hmode => ne_of_mem (hpointer hmode)).trans (s.memWrite_readReg ..)
  | call rb link pc hlink => simp [ne_of_mem hlink]
  | _ => rfl

theorem Ends.readData_eq (h : Ends i s t) {a : Word} (ha : a ∉ storedAt i s) : t.readData a = s.readData a := by
  cases h with
  | load => rw [loadWrite_frame]; rfl
  | store f sz mode rd a v hpointer hbytes =>
    rw [storePointer_frame]
    exact s.readData_memWrite_of_notMem sz (hbytes ▸ ha)
  | _ => rfl

theorem Ends.codeMem_eq (h : Ends i s t) : t.codeMem = s.codeMem := by
  cases h with
  | load => rw [loadWrite_frame]; rfl
  | store => rw [storePointer_frame]; exact s.memWrite_codeMem ..
  | _ => rfl

theorem Ends.halted_eq (h : Ends i s t) : t.halted = s.halted := by
  cases h with
  | load => rw [loadWrite_frame]; rfl
  | store => rw [storePointer_frame]; exact s.memWrite_halted ..
  | _ => rfl

theorem sameElsewhere_rfl (s : State) : SameElsewhere s s := ⟨rfl, rfl, rfl, rfl, rfl, rfl⟩

theorem sameElsewhere_memWrite (s : State) (a : Word) (sz : AccessSize) (v : Word) :
    SameElsewhere s (s.memWrite a sz v) := by
  simp [SameElsewhere]

theorem Ends.sameElsewhere (h : Ends i s t) (hop : i.opcode ≠ .nop) : SameElsewhere s t := by
  cases h with
  | load => rw [loadWrite_frame]; exact sameElsewhere_rfl s
  | store => rw [storePointer_frame]; exact sameElsewhere_memWrite ..
  | quit pc v hnop => exact absurd hnop hop
  | stdout f b hnop => exact absurd hnop hop
  | stderr f b hnop => exact absurd hnop hop
  | _ => exact sameElsewhere_rfl s

end

/-- Settles O27, by the cases of `Ends`: only its arithmetic ending touches `V`. -/
theorem onlyAddAndSubtractWriteTheFlag : Obligations.OnlyAddAndSubtractWriteTheFlag :=
  fun _ _ _ h hflag => (ends_of_exec h).v_eq hflag

/-- Settles O28, by the cases of `Ends`, each with its own written registers. -/
theorem registersChangeOnlyWhereTheRuleSays : Obligations.RegistersChangeOnlyWhereTheRuleSays :=
  fun _ _ _ h _ hr => (ends_of_exec h).readReg_eq hr

/-- Settles O29, by the cases of `Ends`: only the stores touch data memory. -/
theorem dataBytesChangeOnlyWhereAStoreGoes : Obligations.DataBytesChangeOnlyWhereAStoreGoes :=
  fun _ _ _ h _ ha => (ends_of_exec h).readData_eq ha

/-- Settles O30, from the frame lemmas of `Ends`. -/
theorem otherStateChangesOnlyByTheNop : Obligations.OtherStateChangesOnlyByTheNop :=
  fun _ _ _ h => ⟨(ends_of_exec h).codeMem_eq, (ends_of_exec h).halted_eq, (ends_of_exec h).sameElsewhere⟩

end Sys2Proof.Machine
end

section
/-!
PROOFS. What every step keeps (40_execution_cycle.md, 20_memory.md, 10_state.md), from the states an instruction can end
in and the decode failure; and the registers a short form can reach (30_encoding.md R57).
-/

namespace Sys2Proof.Machine

open Sys2Proof.Safety

/-! ## Short forms -/

theorem narrowRegs (i : Instr) : Laws.NarrowRegs.Statement i := by
  cases i with
  | nopS | addS | subS | andS | orS | xorS | asrS | lslS | lsrS | movS | addiS | subiS | asriS | lsliS | lsriS | moviS
  | ldbS | ldbPostincS | ldbPredecS | ldwS | ldwPostincS | ldwPredecS
  | stbS | stbPostincS | stbPredecS | stwS | stwPostincS | stwPredecS
  | braS | balS | beqS | bneS | bltsS | bgtsS | bltuS | bgtuS | jmpS | jalS =>
    simp_all [Laws.NarrowRegs.Statement, Instr.WellFormed, Instr.operands]
  | _ => nofun

/-- What an instruction writes is among the registers it names. -/
theorem mem_operands_of_mayWrite (i : Instr) {r : Reg} (h : r ∈ mayWrite i) : Operand.reg r ∈ i.operands := by
  unfold mayWrite at h
  split at h
  all_goals simp_all
  all_goals exact h.imp_right .inl

/-- Settles O31: the registers a short form may write are among its operands, which are of the narrow class. -/
theorem shortFormsReachRegisters0To7 : Obligations.ShortFormsReachRegisters0To7 := by
  intro i s t hwf hform h r hr
  refine (ends_of_exec h).readReg_eq fun hmem => ?_
  have hnarrow : r.val < 8 := of_decide_eq_true (narrowRegs i hform hwf r (mem_operands_of_mayWrite i hmem))
  omega

/-! ## The statuses -/

/-- Settles O18, reading the status off the `Ends` an execution comes to. -/
theorem everyInstructionCompletes : Obligations.EveryInstructionCompletes := by
  intro i s
  obtain ⟨u, pc, -, hexec⟩ := exec_commits i s
  exact ⟨u.commit pc (returnedStatus i), hexec, rfl, rfl⟩

theorem returnedStatus_ne_trap (i : Instr) : returnedStatus i ≠ .trap := by
  unfold returnedStatus
  split <;> nofun

theorem returnedStatus_ne_invalidInstruction (i : Instr) : returnedStatus i ≠ .invalidInstruction := by
  unfold returnedStatus
  split <;> nofun

/-! ## Every step -/

/-- The states a step can end in: those of an instruction, or the state before with a failure reported. -/
theorem ends_or_decodeFailed_of_step {s t : State} (h : step s = .next t) :
    (∃ i, exec i s = .next t) ∨ ∃ sz, t = s.decodeFailed sz := by
  obtain ⟨-, hstop⟩ | ⟨-, i, n, -, hexec⟩ | ⟨-, r, -, hfail⟩ := step_cases s
  · rw [hstop] at h; cases h
  · exact .inl ⟨i, hexec ▸ h⟩
  · rw [hfail] at h; cases h
    exact .inr ⟨r.size, rfl⟩

/-- Settles O19: a step is an instruction, which completes and keeps the halt bit, or a reported failure. -/
theorem theCoreIsNeverLatched : Obligations.TheCoreIsNeverLatched := by
  intro s hrun
  obtain ⟨hstop, -⟩ | ⟨-, i, n, -, hexec⟩ | ⟨-, r, -, hfail⟩ := step_cases s
  · rw [hrun] at hstop; cases hstop
  · obtain ⟨t, ht, -, -⟩ := everyInstructionCompletes i s
    exact ⟨t, hexec.trans ht, (ends_of_exec ht).halted_eq.trans hrun⟩
  · exact ⟨_, hfail, hrun⟩

/-- Settles O20: an instruction returns its own status, a failure `InvalidInstruction`. -/
theorem trapIsUnreachable : Obligations.TrapIsUnreachable := by
  intro s t h
  obtain ⟨i, hexec⟩ | ⟨sz, rfl⟩ := ends_or_decodeFailed_of_step h
  · obtain ⟨u, pc, -, rfl⟩ := exec_next i s t hexec
    exact returnedStatus_ne_trap i
  · nofun

/-- Settles O24, from the frame of `Ends`: no ending of an instruction has a code byte in it. -/
theorem noStepChangesCodeMemory : Obligations.NoStepChangesCodeMemory := by
  intro s t h
  obtain ⟨i, hexec⟩ | ⟨sz, rfl⟩ := ends_or_decodeFailed_of_step h
  · exact (ends_of_exec hexec).codeMem_eq
  · rfl

/-- `t` has the streams of `s`, at most one byte appended to one of them (10_state.md R18). -/
def EmitsAtMostOneByte (s t : State) : Prop :=
  ∃ o e : List Byte, t.stdout = s.stdout ++ o ∧ t.stderr = s.stderr ++ e ∧ o.length + e.length ≤ 1

theorem emitsAtMostOneByte_of_eq {s t : State} (hout : t.stdout = s.stdout) (herr : t.stderr = s.stderr) :
    EmitsAtMostOneByte s t :=
  ⟨[], [], by simp [hout], by simp [herr], Nat.zero_le 1⟩

theorem Ends.emitsAtMostOneByte {i : Instr} {s t : State} (h : Ends i s t) : EmitsAtMostOneByte s t := by
  cases h with
  | load => exact emitsAtMostOneByte_of_eq (by rw [loadWrite_frame]; rfl) (by rw [loadWrite_frame]; rfl)
  | store =>
    refine emitsAtMostOneByte_of_eq ?_ ?_
    · rw [storePointer_frame]; exact s.memWrite_stdout ..
    · rw [storePointer_frame]; exact s.memWrite_stderr ..
  | stdout f b => exact ⟨[b], [], rfl, (List.append_nil _).symm, le_rfl⟩
  | stderr f b => exact ⟨[], [b], (List.append_nil _).symm, rfl, le_rfl⟩
  | _ => exact emitsAtMostOneByte_of_eq rfl rfl

/-- Settles O25, by cases on how a step ends: only NOP commands 3 and 4 reach a stream. -/
theorem streamsAreAppendOnly : Obligations.StreamsAreAppendOnly := by
  intro s t h
  obtain ⟨i, hexec⟩ | ⟨sz, rfl⟩ := ends_or_decodeFailed_of_step h
  · exact (ends_of_exec hexec).emitsAtMostOneByte
  · exact emitsAtMostOneByte_of_eq rfl rfl

/-- A Quit leaves a valid exit code; every other end leaves `EXIT` and its validity alone. -/
theorem Ends.exit {i : Instr} {s t : State} (h : Ends i s t) :
    (t.status = .quit ∧ t.exitValid = true) ∨
    (t.status ≠ .quit ∧ t.exitCode = s.exitCode ∧ t.exitValid = s.exitValid) := by
  cases h with
  | load => exact .inr ⟨nofun, by rw [loadWrite_frame]; rfl, by rw [loadWrite_frame]; rfl⟩
  | store =>
    refine .inr ⟨nofun, ?_, ?_⟩
    · rw [storePointer_frame]; exact s.memWrite_exitCode ..
    · rw [storePointer_frame]; exact s.memWrite_exitValid ..
  | quit => exact .inl ⟨rfl, rfl⟩
  | _ => exact .inr ⟨nofun, rfl, rfl⟩

/-- Settles O26, by cases on how a step ends: only NOP command 2 captures an exit code. -/
theorem onlyQuitWritesTheExitCode : Obligations.OnlyQuitWritesTheExitCode := by
  intro s t h
  obtain ⟨i, hexec⟩ | ⟨sz, rfl⟩ := ends_or_decodeFailed_of_step h
  · obtain ⟨hquit, hvalid⟩ | ⟨hother, hsame⟩ := (ends_of_exec hexec).exit
    · exact ⟨fun _ => if_pos hvalid, fun hother => absurd hquit hother⟩
    · exact ⟨fun hquit => absurd hquit hother, fun _ => hsame⟩
  · exact ⟨nofun, fun _ => ⟨rfl, rfl⟩⟩

/-! ## The invariant -/

theorem Ends.dataMem_wf {i : Instr} {s t : State} (h : Ends i s t) (hwf : s.dataMem.wf Config.dataBytes = true) :
    t.dataMem.wf Config.dataBytes = true := by
  cases h with
  | load => rw [loadWrite_frame]; exact hwf
  | store => rw [storePointer_frame]; exact s.memWrite_wf _ _ _ hwf
  | _ => exact hwf

/-- Settles O22: nothing is listed, no size is reported and the status is `Ok`. -/
theorem resetSatisfiesTheInvariant : Obligations.ResetSatisfiesTheInvariant :=
  ⟨State.reset_mem_wf.1, State.reset_mem_wf.2, by decide⟩

/-- Settles O23: an instruction reports no size beside its status, a failure reports one. -/
theorem stepKeepsTheInvariant : Obligations.StepKeepsTheInvariant := by
  rintro s t ⟨hcode, hdata, hreport⟩ h
  obtain ⟨i, hexec⟩ | ⟨sz, rfl⟩ := ends_or_decodeFailed_of_step h
  · refine ⟨(ends_of_exec hexec).codeMem_eq ▸ hcode, (ends_of_exec hexec).dataMem_wf hdata, ?_⟩
    obtain ⟨u, pc, -, rfl⟩ := exec_next i s t hexec
    exact iff_of_false nofun (returnedStatus_ne_invalidInstruction i)
  · exact ⟨hcode, hdata, iff_of_true rfl rfl⟩

/-- Settles O53, since `reset` computes. -/
theorem resetState : Obligations.ResetState := ⟨rfl, rfl, rfl, rfl, rfl⟩

end Sys2Proof.Machine
end

section
/-!
PROOFS. What each shared operation leaves, as the statements read a state (`EndsWith`): one rule for each operation and
addressing mode, for any form and size.
-/

namespace Sys2Proof.Machine

open Sys2Proof.Safety

/-! ## Loaded values and stored bytes -/

/-- The value a load of a size reads at an address (20_memory.md R33). -/
def loadedValue (s : State) (sz : AccessSize) (a : Word) : Word :=
  match sz with
  | .byte => byteAt s a
  | .word => wordAt s a

theorem State.memRead_eq_loadedValue (s : State) (a : Word) (sz : AccessSize) : s.memRead a sz = loadedValue s sz a := by
  cases sz with
  | byte => exact BitVec.setWidth_eq_append (by decide)
  | word => rfl

/-- The data reading after a store of a size at an address (R34). -/
def storedData (s : State) (sz : AccessSize) (a v : Word) : Word → Byte :=
  match sz with
  | .byte => withByte s.readData a (lowByte v)
  | .word => withWord s.readData a v

theorem State.readData_memWrite_eq_storedData (s : State) (a v : Word) (sz : AccessSize) :
    (s.memWrite a sz v).readData = storedData s sz a v := by
  cases sz with
  | byte => exact s.readData_memWrite_byte a v
  | word => exact s.readData_memWrite_word a v

section
variable {i : Instr} {f : Form} {sz : AccessSize} {mode : AddrMode} {rd ra rb : Reg} {off : Int} {s t : State}

theorem withReg_apply (g : Reg → Word) (r q : Reg) (v : Word) : withReg g r v q = if q = r then v else g q := rfl

/-! ## Loads (46_load.md R145) -/

theorem endsWith_of_load {regs : Reg → Word} (hexec : exec i s = load f sz mode rd ra off s)
    (hregs : ∀ q, (loadWrite sz mode rd ra (basePointer sz mode (s.readReg ra))
      (s.memRead (accessAddr sz mode (s.readReg ra) off) sz) s).readReg q = regs q) :
    EndsWith i s regs s.v (s.pc + formUnits f) s.readData := by
  refine ⟨_, hexec, hregs, ?_⟩
  rw [loadWrite_frame]
  exact ⟨rfl, rfl, fun _ => rfl, rfl, rfl, sameElsewhere_rfl s⟩

theorem writes_of_plain_load (hexec : exec i s = load f sz .plain rd ra off s) :
    Writes i s rd (loadedValue s sz (s.readReg ra + trunc16 off)) (formUnits f) := by
  rw [← State.memRead_eq_loadedValue]
  exact writes_of_exec_eq_writeBack hexec

/-- The pointer is written before the loaded value (R145). -/
theorem endsWith_of_predec_load (hexec : exec i s = load f sz .predec rd ra off s) :
    EndsWith i s (withReg (withReg s.readReg ra (s.readReg ra - sz.step)) rd
      (loadedValue s sz (s.readReg ra - sz.step + trunc16 off))) s.v (s.pc + formUnits f) s.readData := by
  rw [← State.memRead_eq_loadedValue]
  exact endsWith_of_load hexec fun q => loadWrite_readReg ..

/-- The pointer is written after the loaded value (R145). -/
theorem endsWith_of_postinc_load (hexec : exec i s = load f sz .postinc rd ra off s) (hne : rd ≠ ra) :
    EndsWith i s (withReg (withReg s.readReg rd (loadedValue s sz (s.readReg ra + trunc16 off))) ra
      (s.readReg ra + sz.step)) s.v (s.pc + formUnits f) s.readData := by
  rw [← State.memRead_eq_loadedValue]
  refine endsWith_of_load hexec fun q => ?_
  rw [loadWrite_readReg, if_neg hne]
  rfl

/-- A post-increment load into its own pointer leaves what the configuration selects (D11). -/
theorem endsWith_of_postinc_load_same (hexec : exec i s = load f sz .postinc ra ra off s) :
    EndsWith i s (withReg s.readReg ra (postincSameReg sz (s.readReg ra)
      (loadedValue s sz (s.readReg ra + trunc16 off)))) s.v (s.pc + formUnits f) s.readData := by
  rw [← State.memRead_eq_loadedValue]
  refine endsWith_of_load hexec fun q => ?_
  rw [loadWrite_readReg, if_pos rfl]
  rfl

/-! ## Stores (47_store.md R155) -/

theorem endsWith_of_store {regs : Reg → Word} {val : Word} (hexec : exec i s = store f sz mode rd off ra s)
    (hval : storedValue sz mode rd ra s = val) (hregs : ∀ q, (storePointer sz mode rd s).readReg q = regs q) :
    EndsWith i s regs s.v (s.pc + formUnits f)
      (storedData s sz (accessAddr sz mode (s.readReg rd) off) val) := by
  subst hval
  refine ⟨_, hexec, fun q => ?regs, ?rest⟩
  case regs =>
    rw [← hregs, State.retire_readReg, storePointer_readReg, storePointer_readReg]
    simp only [State.memWrite_readReg]
  case rest =>
    rw [storePointer_frame]
    refine ⟨s.memWrite_v .., congrArg (· + _) (s.memWrite_pc ..), fun a => ?_, rfl, rfl, sameElsewhere_memWrite ..⟩
    exact congrFun (s.readData_memWrite_eq_storedData ..) a

theorem storedValue_of_ne (hne : ra ≠ rd) : storedValue sz mode rd ra s = s.readReg ra := if_neg hne

theorem storedValue_same : storedValue sz mode rd rd s = storedPointer sz mode (s.readReg rd) := if_pos rfl

/-- Only a pre-decrement store can store another value than its register's (R155). -/
theorem storedValue_of_ne_predec (hmode : mode ≠ .predec) : storedValue sz mode rd ra s = s.readReg ra := by
  by_cases hra : ra = rd
  · subst hra
    rw [storedValue_same]
    cases mode with
    | plain => rfl
    | postinc => rfl
    | predec => exact absurd rfl hmode
  · exact storedValue_of_ne hra

theorem endsWith_of_plain_store (hexec : exec i s = store f sz .plain rd off ra s) :
    EndsWith i s s.readReg s.v (s.pc + formUnits f)
      (storedData s sz (s.readReg rd + trunc16 off) (s.readReg ra)) :=
  endsWith_of_store hexec (storedValue_of_ne_predec nofun) fun _ => storePointer_readReg ..

theorem endsWith_of_postinc_store (hexec : exec i s = store f sz .postinc rd off ra s) :
    EndsWith i s (withReg s.readReg rd (s.readReg rd + sz.step)) s.v (s.pc + formUnits f)
      (storedData s sz (s.readReg rd + trunc16 off) (s.readReg ra)) :=
  endsWith_of_store hexec (storedValue_of_ne_predec nofun) fun _ => storePointer_readReg ..

theorem endsWith_of_predec_store {val : Word} (hexec : exec i s = store f sz .predec rd off ra s)
    (hval : storedValue sz .predec rd ra s = val) :
    EndsWith i s (withReg s.readReg rd (s.readReg rd - sz.step)) s.v (s.pc + formUnits f)
      (storedData s sz (s.readReg rd - sz.step + trunc16 off) val) :=
  endsWith_of_store hexec hval fun _ => storePointer_readReg ..

/-! ## Control transfers (48_branch.md R165 to R167) -/

theorem goesTo_of_jump {target : Word} (hexec : exec i s = jump target s) : GoesTo i s target :=
  ⟨_, hexec, fun _ => rfl, rfl, rfl, fun _ => rfl, rfl, rfl, sameElsewhere_rfl s⟩

theorem goesTo_of_branchIf {c : Prop} [Decidable c] (hexec : exec i s = branchIf f (decide c) off s) :
    GoesTo i s (if c then s.pc + trunc16 off else s.pc + formUnits f) := by
  refine ⟨_, hexec, fun _ => rfl, rfl, ?pc, fun _ => rfl, rfl, rfl, sameElsewhere_rfl s⟩
  case pc => simp only [State.commit_pc, decide_eq_true_eq, branchTarget, State.seqPc]

theorem endsWith_of_linkAndJump {target : Word} (hexec : exec i s = linkAndJump f rb target s) :
    EndsWith i s (withReg s.readReg rb (s.pc + formUnits f)) s.v target s.readData :=
  ⟨_, hexec, fun _ => State.readReg_writeReg .., rfl, rfl, fun _ => rfl, rfl, rfl, sameElsewhere_rfl s⟩

/-! ## Reading a given next state -/

/-- `exec` answers one state, so what some next state reads, a given one does. -/
theorem reads_of_endsWith {regs : Reg → Word} {v : Bool} {pc : Word} {data : Word → Byte}
    (h : EndsWith i s regs v pc data) (hexec : exec i s = .next t) :
    (∀ r, t.readReg r = regs r) ∧ ∀ a, t.readData a = data a := by
  obtain ⟨u, hu, hregs, -, -, hdata, -⟩ := h
  rw [hu] at hexec
  cases hexec
  exact ⟨hregs, hdata⟩

end

end Sys2Proof.Machine
end

section
/-!
PROOFS. The instructions one by one (41_system_nop.md to 48_branch.md), each a case of the rule of its operation. Each
`rfl` is the instruction's arm of `exec`.
-/

namespace Sys2Proof.Machine

open Sys2Proof.Safety

/-! ## NOP, moves and logic -/

/-- The NOP's command table for one form (R105). -/
theorem nopCommand_effects (f : Form) (rd : Reg) (cmd : Nat) (s : State) :
    let at0 : State := { s with pc := s.pc + formUnits f, failSize := none }
    (cmd = 0 → nopCommand f rd cmd s = .next { at0 with status := .breakpoint }) ∧
    (cmd = 2 → nopCommand f rd cmd s =
      .next { at0 with status := .quit, exitCode := s.readReg rd, exitValid := true }) ∧
    (cmd = 3 → nopCommand f rd cmd s =
      .next { at0 with status := .ok, stdout := s.stdout ++ [(s.readReg rd).extractLsb' 0 8] }) ∧
    (cmd = 4 → nopCommand f rd cmd s =
      .next { at0 with status := .ok, stderr := s.stderr ++ [(s.readReg rd).extractLsb' 0 8] }) ∧
    (cmd = 1 ∨ 5 ≤ cmd → nopCommand f rd cmd s = .next { at0 with status := .ok }) := by
  simp only [nopCommand_next]
  exact ⟨fun h => .inl ⟨h, rfl⟩, fun h => .inr (.inl ⟨h, rfl⟩), fun h => .inr (.inr (.inl ⟨h, rfl⟩)),
    fun h => .inr (.inr (.inr (.inl ⟨h, rfl⟩))), fun h => .inr (.inr (.inr (.inr ⟨h, rfl⟩)))⟩

/-- Settles O32: the command table in each form. -/
theorem nopCommandEffects : Obligations.NopCommandEffects := by
  intro rd cmd s p hp
  obtain rfl | rfl : p = (.nopS rd cmd, 1) ∨ p = (.nopL rd cmd, 2) := by simpa using hp
  · exact nopCommand_effects .short rd cmd s
  · exact nopCommand_effects .long rd cmd s

/-- Settles O33, by the rule for an instruction that ends in one register write. -/
theorem moveResults : Obligations.MoveResults := by
  intro rd ra imm s
  rw [← maskedImm_eq]
  refine ⟨?movS, ?movL, ?moviS, ?moviL⟩
  case movS => exact writes_of_exec_eq_writeBack (f := .short) rfl
  case movL => exact writes_of_exec_eq_writeBack (f := .long) rfl
  case moviS => exact writes_of_exec_eq_writeBack (f := .short) rfl
  case moviL => exact writes_of_exec_eq_writeBack (f := .long) rfl

/-- Settles O36, by the rule for an instruction that ends in one register write. -/
theorem logicResults : Obligations.LogicResults := by
  intro rd ra rb imm s
  refine ⟨?andS, ?andL, ?andiL, ?orS, ?orL, ?oriL, ?xorS, ?xorL, ?xoriL⟩
  case andS | orS | xorS => exact writes_of_exec_eq_writeBack (f := .short) rfl
  case andL | andiL | orL | oriL | xorL | xoriL => exact writes_of_exec_eq_writeBack (f := .long) rfl

/-! ## The register result of the add and subtract families -/

theorem readReg_of_writesSum {i : Instr} {s t : State} {rd : Reg} {res : Int} {len : Word}
    (h : WritesSum i s rd res len) (hexec : exec i s = .next t) : t.readReg rd = BitVec.ofInt 16 res := by
  rw [(reads_of_endsWith h hexec).1 rd, withReg_apply, if_pos rfl]

theorem ofInt_carry (v : Bool) : BitVec.ofInt 16 (if v then 1 else 0) = if v then (1 : Word) else 0 := by
  cases v <;> rfl

theorem ofInt_sub (a b : Int) : BitVec.ofInt 16 (a - b) = BitVec.ofInt 16 a - BitVec.ofInt 16 b := by
  rw [Int.sub_eq_add_neg, BitVec.ofInt_add, BitVec.ofInt_neg, BitVec.sub_eq_add_neg]

/-- Settles O35: the result of R115 modulo 2^16 is the sum or difference of the registers as words. -/
theorem theRegisterResultIsModular : Obligations.TheRegisterResultIsModular := by
  intro rd ra rb imm s t
  obtain ⟨addS, addL, addiS, addiL, addcL, subS, subL, subiS, subiL, subcL⟩ := addAndSubtractResults rd ra rb imm s
  have ofInt_word (w : Word) : BitVec.ofInt 16 w.toInt = w := BitVec.ofInt_toInt
  refine ⟨fun h => (readReg_of_writesSum addS h).trans ?_, fun h => (readReg_of_writesSum addL h).trans ?_,
    fun h => (readReg_of_writesSum addiS h).trans ?_, fun h => (readReg_of_writesSum addiL h).trans ?_,
    fun h => (readReg_of_writesSum addcL h).trans ?_, fun h => (readReg_of_writesSum subS h).trans ?_,
    fun h => (readReg_of_writesSum subL h).trans ?_, fun h => (readReg_of_writesSum subiS h).trans ?_,
    fun h => (readReg_of_writesSum subiL h).trans ?_, fun h => (readReg_of_writesSum subcL h).trans ?_⟩
  all_goals simp only [BitVec.ofInt_add, ofInt_sub, ofInt_word, BitVec.ofInt_natCast, ofInt_carry]

/-! ## Loads -/

/-- Settles O38, by the rule for loads, at the plain mode. -/
theorem plainLoadResults : Obligations.PlainLoadResults := by
  intro rd ra off s
  refine ⟨?ldbS, ?ldbL, ?ldwS, ?ldwL⟩
  case ldbS => exact writes_of_plain_load (f := .short) (sz := .byte) rfl
  case ldbL => exact writes_of_plain_load (f := .long) (sz := .byte) rfl
  case ldwS => exact writes_of_plain_load (f := .short) (sz := .word) rfl
  case ldwL => exact writes_of_plain_load (f := .long) (sz := .word) rfl

/-- Settles O39, by the rule for loads, at the pre-decrement mode. -/
theorem predecrementLoadResults : Obligations.PredecrementLoadResults := by
  intro rd ra off s
  refine ⟨?ldbS, ?ldbL, ?ldwS, ?ldwL⟩
  case ldbS => exact endsWith_of_predec_load (f := .short) (sz := .byte) rfl
  case ldbL => exact endsWith_of_predec_load (f := .long) (sz := .byte) rfl
  case ldwS => exact endsWith_of_predec_load (f := .short) (sz := .word) rfl
  case ldwL => exact endsWith_of_predec_load (f := .long) (sz := .word) rfl

/-- Settles O40, by the rule for loads, at the post-increment mode. -/
theorem postincrementLoadResults : Obligations.PostincrementLoadResults := by
  intro rd ra off s hne
  refine ⟨?ldbS, ?ldbL, ?ldwS, ?ldwL⟩
  case ldbS => exact endsWith_of_postinc_load (f := .short) (sz := .byte) rfl hne
  case ldbL => exact endsWith_of_postinc_load (f := .long) (sz := .byte) rfl hne
  case ldwS => exact endsWith_of_postinc_load (f := .short) (sz := .word) rfl hne
  case ldwL => exact endsWith_of_postinc_load (f := .long) (sz := .word) rfl hne

theorem postincSameReg_cases :
    (∀ sz base val, postincSameReg sz base val = base + sz.step) ∨
    (∀ sz base val, postincSameReg sz base val = val + sz.step) := by
  unfold postincSameReg
  cases Config.postincLoadSameReg with
  | pointerWins => exact .inl fun _ _ _ => rfl
  | loadedPlusSize => exact .inr fun _ _ _ => rfl

/-- Settles O41: the configuration selects one of the two effects for all such loads. -/
theorem postincrementLoadIntoItsPointer : Obligations.PostincrementLoadIntoItsPointer := by
  have result (f : Form) (sz : AccessSize) {i : Instr} {r : Reg} {off : Int} {s : State} {v : Word}
      (hexec : exec i s = load f sz .postinc r r off s)
      (hv : postincSameReg sz (s.readReg r) (loadedValue s sz (s.readReg r + trunc16 off)) = v) :
      EndsWith i s (withReg s.readReg r v) s.v (s.pc + formUnits f) s.readData :=
    hv ▸ endsWith_of_postinc_load_same hexec
  obtain hsel | hsel := postincSameReg_cases
  · exact .inl fun r off s => ⟨result .short .byte rfl (hsel ..), result .long .byte rfl (hsel ..),
      result .short .word rfl (hsel ..), result .long .word rfl (hsel ..)⟩
  · exact .inr fun r off s => ⟨result .short .byte rfl (hsel ..), result .long .byte rfl (hsel ..),
      result .short .word rfl (hsel ..), result .long .word rfl (hsel ..)⟩

/-! ## Stores -/

/-- Settles O42, by the rule for stores, at the plain mode. -/
theorem plainStoreResults : Obligations.PlainStoreResults := by
  intro rd ra off s
  refine ⟨?stbS, ?stbL, ?stwS, ?stwL⟩
  case stbS => exact endsWith_of_plain_store (f := .short) (sz := .byte) rfl
  case stbL => exact endsWith_of_plain_store (f := .long) (sz := .byte) rfl
  case stwS => exact endsWith_of_plain_store (f := .short) (sz := .word) rfl
  case stwL => exact endsWith_of_plain_store (f := .long) (sz := .word) rfl

/-- Settles O43, by the rule for stores, at the post-increment mode. -/
theorem postincrementStoreResults : Obligations.PostincrementStoreResults := by
  intro rd ra off s
  refine ⟨?stbS, ?stbL, ?stwS, ?stwL⟩
  case stbS => exact endsWith_of_postinc_store (f := .short) (sz := .byte) rfl
  case stbL => exact endsWith_of_postinc_store (f := .long) (sz := .byte) rfl
  case stwS => exact endsWith_of_postinc_store (f := .short) (sz := .word) rfl
  case stwL => exact endsWith_of_postinc_store (f := .long) (sz := .word) rfl

/-- Settles O44, by the rule for stores, at the pre-decrement mode. -/
theorem predecrementStoreResults : Obligations.PredecrementStoreResults := by
  intro rd ra off s hne
  refine ⟨?stbS, ?stbL, ?stwS, ?stwL⟩
  case stbS => exact endsWith_of_predec_store (f := .short) (sz := .byte) rfl (storedValue_of_ne hne)
  case stbL => exact endsWith_of_predec_store (f := .long) (sz := .byte) rfl (storedValue_of_ne hne)
  case stwS => exact endsWith_of_predec_store (f := .short) (sz := .word) rfl (storedValue_of_ne hne)
  case stwL => exact endsWith_of_predec_store (f := .long) (sz := .word) rfl (storedValue_of_ne hne)

theorem storedPointer_predec_cases :
    (∀ sz ptr, storedPointer sz .predec ptr = ptr - sz.step) ∨ (∀ sz ptr, storedPointer sz .predec ptr = ptr) := by
  unfold storedPointer
  cases Config.predecStoreSameReg with
  | valueAfterDecrement => exact .inl fun _ _ => rfl
  | valueBeforeDecrement => exact .inr fun _ _ => rfl

/-- Settles O45: the configuration selects one of the two values for all such stores. -/
theorem predecrementStoreOfItsPointer : Obligations.PredecrementStoreOfItsPointer := by
  have result (f : Form) (sz : AccessSize) {i : Instr} {r : Reg} {off : Int} {s : State} {v : Word}
      (hexec : exec i s = store f sz .predec r off r s) (hv : storedPointer sz .predec (s.readReg r) = v) :=
    endsWith_of_predec_store hexec (storedValue_same.trans hv)
  obtain hsel | hsel := storedPointer_predec_cases
  · exact .inl fun r off s => ⟨result .short .byte rfl (hsel ..), result .long .byte rfl (hsel ..),
      result .short .word rfl (hsel ..), result .long .word rfl (hsel ..)⟩
  · exact .inr fun r off s => ⟨result .short .byte rfl (hsel ..), result .long .byte rfl (hsel ..),
      result .short .word rfl (hsel ..), result .long .word rfl (hsel ..)⟩

/-! ## Control transfers -/

/-- Settles O48, by the rule for conditional branches, one relation at a time. -/
theorem conditionalBranchResults : Obligations.ConditionalBranchResults := by
  intro ra rb off s
  refine ⟨?beqS, ?beqL, ?bneS, ?bneL, ?bltsS, ?bltsL, ?bgtsS, ?bgtsL, ?bltuS, ?bltuL, ?bgtuS, ?bgtuL⟩
  case beqS | bneS | bltsS | bgtsS | bltuS | bgtuS => exact goesTo_of_branchIf (f := .short) rfl
  case beqL | bneL | bltsL | bgtsL | bltuL | bgtuL => exact goesTo_of_branchIf (f := .long) rfl

/-- Settles O49, by the rule for jumps. -/
theorem branchAndJumpResults : Obligations.BranchAndJumpResults :=
  fun _ _ _ => ⟨goesTo_of_jump rfl, goesTo_of_jump rfl, goesTo_of_jump rfl, goesTo_of_jump rfl⟩

theorem jalTarget_of_ne {f : Form} {rd rb : Reg} {s : State} (hne : rd ≠ rb) : jalTarget f rd rb s = s.readReg rd :=
  if_neg hne

theorem jalTarget_same {f : Form} {r : Reg} {s : State} :
    jalTarget f r r s = jalSameRegTarget (s.seqPc f) (s.readReg r) :=
  if_pos rfl

theorem endsWith_of_jal {i : Instr} {f : Form} {rd rb : Reg} {s : State} {target : Word}
    (hexec : exec i s = linkAndJump f rb (jalTarget f rd rb s) s) (htarget : jalTarget f rd rb s = target) :
    EndsWith i s (withReg s.readReg rb (s.pc + formUnits f)) s.v target s.readData :=
  htarget ▸ endsWith_of_linkAndJump hexec

/-- Settles O50, by the rules for the two calls. -/
theorem callResults : Obligations.CallResults := by
  intro rd rb off s
  refine ⟨?balS, ?balL, fun hne => ⟨?jalS, ?jalL⟩⟩
  case balS => exact endsWith_of_linkAndJump (f := .short) rfl
  case balL => exact endsWith_of_linkAndJump (f := .long) rfl
  case jalS => exact endsWith_of_jal (f := .short) rfl (jalTarget_of_ne hne)
  case jalL => exact endsWith_of_jal (f := .long) rfl (jalTarget_of_ne hne)

theorem jalSameRegTarget_cases :
    (∀ seq old, jalSameRegTarget seq old = seq) ∨ (∀ seq old, jalSameRegTarget seq old = old) := by
  unfold jalSameRegTarget
  cases Config.jalSameReg with
  | linkFirst => exact .inl fun _ _ => rfl
  | targetFirst => exact .inr fun _ _ => rfl

/-- Settles O51: the configuration selects one of the two targets for all such JALs. -/
theorem jalThroughItsLink : Obligations.JalThroughItsLink := by
  obtain hsel | hsel := jalSameRegTarget_cases
  · exact .inl fun r s => ⟨endsWith_of_jal (f := .short) rfl (jalTarget_same.trans (hsel ..)),
      endsWith_of_jal (f := .long) rfl (jalTarget_same.trans (hsel ..))⟩
  · exact .inr fun r s => ⟨endsWith_of_jal (f := .short) rfl (jalTarget_same.trans (hsel ..)),
      endsWith_of_jal (f := .long) rfl (jalTarget_same.trans (hsel ..))⟩

/-- A taken branch with offset -1. -/
theorem goesTo_pred_of_branchIf {i : Instr} {f : Form} {c : Prop} [Decidable c] {off : Int} {s : State}
    (hexec : exec i s = branchIf f (decide c) off s) (hoff : off = -1) (htaken : c) : GoesTo i s (s.pc - 1) := by
  have h := goesTo_of_branchIf hexec
  rw [if_pos htaken, hoff] at h
  rw [BitVec.sub_eq_add_neg]
  exact h

/-- Settles O52: each word is its row of class 2, whose offset is -1. -/
theorem anAllOnesOffsetBranchesBackByOne : Obligations.AnAllOnesOffsetBranchesBackByOne := by
  intro ah bh al bl s back x y x2 y2
  have short (op : BitVec 4) := decodeShort_class2 op 7 al bl
  have long (op : BitVec 4) := decodeLong_class2 op 15 7 ah bh 7 al bl
  have short_off : sextFrom 3 7#3 = -1 := rfl
  have long_off : sextFrom 10 (15#4 ++ 7#3 ++ 7#3) = -1 := rfl
  exact ⟨
    ⟨_, short 2, goesTo_pred_of_branchIf (f := .short) (c := x = y) rfl short_off⟩,
    ⟨_, long 2, goesTo_pred_of_branchIf (f := .long) (c := x2 = y2) rfl long_off⟩,
    ⟨_, short 3, goesTo_pred_of_branchIf (f := .short) (c := x ≠ y) rfl short_off⟩,
    ⟨_, long 3, goesTo_pred_of_branchIf (f := .long) (c := x2 ≠ y2) rfl long_off⟩,
    ⟨_, short 4, goesTo_pred_of_branchIf (f := .short) (c := x.toInt < y.toInt) rfl short_off⟩,
    ⟨_, long 4, goesTo_pred_of_branchIf (f := .long) (c := x2.toInt < y2.toInt) rfl long_off⟩,
    ⟨_, short 5, goesTo_pred_of_branchIf (f := .short) (c := x.toInt > y.toInt) rfl short_off⟩,
    ⟨_, long 5, goesTo_pred_of_branchIf (f := .long) (c := x2.toInt > y2.toInt) rfl long_off⟩,
    ⟨_, short 6, goesTo_pred_of_branchIf (f := .short) (c := x.toNat < y.toNat) rfl short_off⟩,
    ⟨_, long 6, goesTo_pred_of_branchIf (f := .long) (c := x2.toNat < y2.toNat) rfl long_off⟩,
    ⟨_, short 7, goesTo_pred_of_branchIf (f := .short) (c := x.toNat > y.toNat) rfl short_off⟩,
    ⟨_, long 7, goesTo_pred_of_branchIf (f := .long) (c := x2.toNat > y2.toNat) rfl long_off⟩⟩

end Sys2Proof.Machine
end

section
/-!
PROOFS. A word stored and loaded back (20_memory.md R30 to R34), by the rules of the plain store and the plain load.
-/

namespace Sys2Proof.Machine

open Sys2Proof.Safety

theorem exists_next_of_writes {i : Instr} {s : State} {rd : Reg} {val len : Word} (h : Writes i s rd val len) :
    ∃ u, exec i s = .next u ∧ u.readReg rd = val := by
  obtain ⟨u, hexec, hregs, -⟩ := h
  exact ⟨u, hexec, (hregs rd).trans (if_pos rfl)⟩

theorem withWord_low (g : Word → Byte) (a v : Word) : withWord g a v a = lowByte v := by
  rw [withWord_apply, if_neg (by bv_omega), if_pos rfl]

theorem withWord_high (g : Word → Byte) (a v : Word) : withWord g a v (a + 1) = highByte v := by
  rw [withWord_apply, if_pos rfl]

theorem effectiveAddr_succ (base : Word) (off : Int) :
    base + BitVec.ofInt 16 (off + 1) = base + BitVec.ofInt 16 off + 1 := by
  rw [BitVec.ofInt_add, ← BitVec.add_assoc]
  rfl

/-- Settles O46: the store leaves the registers and puts the word's bytes at the address and the next, where the loads
read. -/
theorem wordStoreThenLoadRoundTrips : Obligations.WordStoreThenLoadRoundTrips := by
  intro rd ra rc off s t stw hstw hexec
  obtain ⟨hregs, hdata⟩ : (∀ r, t.readReg r = s.readReg r) ∧
      ∀ a, t.readData a = withWord s.readData (s.readReg rd + BitVec.ofInt 16 off) (s.readReg ra) a := by
    obtain ⟨-, -, stwS, stwL⟩ := plainStoreResults rd ra off s
    obtain rfl | rfl : stw = .stwS rd off ra ∨ stw = .stwL rd off ra := by simpa using hstw
    · exact reads_of_endsWith stwS hexec
    · exact reads_of_endsWith stwL hexec
  have low := (hdata _).trans (withWord_low ..)
  have high := (hdata _).trans (withWord_high ..)
  obtain ⟨ldbS, ldbL, ldwS, ldwL⟩ := plainLoadResults rc rd off t
  obtain ⟨ldbS', ldbL', -, -⟩ := plainLoadResults rc rd (off + 1) t
  simp only [byteAt, wordAt, effectiveAddr_succ, hregs, low, high] at ldbS ldbL ldwS ldwL ldbS' ldbL'
  have joined : highByte (s.readReg ra) ++ lowByte (s.readReg ra) = s.readReg ra := wordOfBytes_low_high _
  rw [joined] at ldwS ldwL
  simp only [List.forall_mem_cons, List.not_mem_nil, false_implies, implies_true, and_true]
  exact ⟨⟨exists_next_of_writes ldwS, exists_next_of_writes ldwL⟩,
    ⟨exists_next_of_writes ldbS, exists_next_of_writes ldbL⟩, exists_next_of_writes ldbS', exists_next_of_writes ldbL'⟩

end Sys2Proof.Machine
end

section
/-!
PROOFS. The canonical form of a memory is unique (20_memory.md, log entry 4).
-/

namespace Sys2Proof.Machine

/-- Below its first address a canonical memory lists nothing. -/
theorem Memory.read_of_lt {m : Memory} {a : Nat} (h : ∀ c ∈ m, a < c.1) : m.read a = Config.unlistedByte := by
  induction m with
  | nil => rfl
  | cons c m ih =>
    obtain ⟨k, b⟩ := c
    obtain ⟨hk, hm⟩ := List.forall_mem_cons.mp h
    rw [Memory.read_cons, if_neg (Nat.ne_of_gt hk), ih hm]

/-- A canonical memory reads its first byte at its first address, and nothing below. -/
theorem Memory.read_head (k : Nat) (b : Byte) (m : Memory) : Memory.read ((k, b) :: m) k = b := by
  rw [Memory.read_cons, if_pos rfl]

theorem Memory.read_below_head {k a : Nat} {b : Byte} {m : Memory} (hm : ∀ c ∈ m, k < c.1) (ha : a < k) :
    Memory.read ((k, b) :: m) a = Config.unlistedByte :=
  Memory.read_of_lt (List.forall_mem_cons.mpr ⟨ha, fun c hc => ha.trans (hm c hc)⟩)

/-- Settles O57: memories that read the same begin with the same cell, and their tails read the same. -/
theorem equalReadingMemoriesAreEqual : Obligations.EqualReadingMemoriesAreEqual := by
  intro limit m m' hwf hwf' hread
  induction m generalizing m' with
  | nil =>
    cases m' with
    | nil => rfl
    | cons c' m' =>
      obtain ⟨-, hb', -, -⟩ := (Memory.wf_cons ..).mp hwf'
      exact absurd ((hread c'.1).trans (Memory.read_head ..)).symm hb'
  | cons c m ih =>
    obtain ⟨k, b⟩ := c
    obtain ⟨-, hb, hm, hwfm⟩ := (Memory.wf_cons ..).mp hwf
    cases m' with
    | nil => exact absurd ((hread k).symm.trans (Memory.read_head ..)).symm hb
    | cons c' m' =>
      obtain ⟨k', b'⟩ := c'
      obtain ⟨-, hb', hm', hwfm'⟩ := (Memory.wf_cons ..).mp hwf'
      obtain hlt | rfl | hgt := lt_trichotomy k k'
      · exact absurd ((Memory.read_head k b m).symm.trans ((hread k).trans (Memory.read_below_head hm' hlt))) hb
      · obtain rfl : b = b' := (Memory.read_head k b m).symm.trans ((hread k).trans (Memory.read_head k b' m'))
        have tails (a : Nat) : Memory.read m a = Memory.read m' a := by
          by_cases ha : k = a
          · rw [← ha, Memory.read_of_lt hm, Memory.read_of_lt hm']
          · simpa only [Memory.read_cons, if_neg ha] using hread a
        rw [ih m' hwfm hwfm' tails]
      · exact absurd ((Memory.read_head k' b' m').symm.trans ((hread k').symm.trans (Memory.read_below_head hm hgt))) hb'

end Sys2Proof.Machine
end

section
/-!
PROOFS. The launch (70_reset_and_hazards.md R208): what every host operation before the first step keeps, and what the
setters leave.
-/

namespace Sys2Proof.Machine

open Sys2Proof.Safety

/-- A well-formed state that has run nothing: what reset gives and every host operation of a launch keeps. -/
structure Launching (s : State) : Prop where
  inv : Inv s
  stdout_eq : s.stdout = []
  stderr_eq : s.stderr = []
  exitValid_eq : s.exitValid = false
  halted_eq : s.halted = false

theorem launching_reset : Launching State.reset := ⟨resetSatisfiesTheInvariant, rfl, rfl, rfl, rfl⟩

section
variable {s t : State}

theorem Launching.loadCodeSection {bytes : List Byte} {address : Nat} (h : Launching s)
    (hload : s.loadCodeSection bytes address = some t) : Launching t := by
  obtain ⟨hfits, rfl⟩ := State.loadCodeSection_eq_some_iff.mp hload
  obtain ⟨⟨hcode, hdata, hreport⟩, hout, herr, hexit, hhalt⟩ := h
  exact ⟨⟨Memory.wf_writeAll _ _ _ _ hcode hfits, hdata, hreport⟩, hout, herr, hexit, hhalt⟩

theorem Launching.loadDataSection {bytes : List Byte} {address : Nat} (h : Launching s)
    (hload : s.loadDataSection bytes address = some t) : Launching t := by
  obtain ⟨hfits, rfl⟩ := State.loadDataSection_eq_some_iff.mp hload
  obtain ⟨⟨hcode, hdata, hreport⟩, hout, herr, hexit, hhalt⟩ := h
  exact ⟨⟨hcode, Memory.wf_writeAll _ _ _ _ hdata hfits, hreport⟩, hout, herr, hexit, hhalt⟩

/-- What each step of a chain of loads keeps, the chain keeps. -/
theorem foldlM_keeps {α β : Type} {P : α → Prop} {g : α → β → Option α} (hkeep : ∀ a b a', P a → g a b = some a' → P a')
    (l : List β) {a a' : α} (ha : P a) (h : l.foldlM g a = some a') : P a' := by
  induction l generalizing a with
  | nil => cases h; exact ha
  | cons b l ih =>
    rw [List.foldlM_cons] at h
    obtain ⟨a1, h1, h2⟩ := Option.bind_eq_some_iff.mp h
    exact ih (hkeep a b a1 ha h1) h2

/-- The host's register settings, in order. -/
def setRegs (l : List (Reg × Int)) (s : State) : State := l.foldl (fun s r => s.setReg r.1 r.2) s

theorem setRegs_frame (l : List (Reg × Int)) (s : State) : setRegs l s = { s with regs := (setRegs l s).regs } := by
  induction l generalizing s with
  | nil => rfl
  | cons p l ih =>
    have h := ih (s.setReg p.1 p.2)
    exact h

theorem getReg_setRegs_of_notMem {l : List (Reg × Int)} {r : Reg} (hr : r ∉ l.map Prod.fst) (s : State) :
    (setRegs l s).getReg r = s.getReg r := by
  induction l generalizing s with
  | nil => rfl
  | cons p l ih =>
    obtain ⟨hne, hl⟩ := not_or.mp (List.mem_cons.not.mp hr)
    exact (ih hl (s.setReg p.1 p.2)).trans (s.getReg_setReg_of_ne p.2 hne)

/-- A register set once reads the value it was set to. -/
theorem getReg_setRegs {l : List (Reg × Int)} (hnodup : (l.map Prod.fst).Nodup) {r : Reg} {v : Int} (hmem : (r, v) ∈ l)
    (s : State) : (setRegs l s).getReg r = trunc16 v := by
  induction l generalizing s with
  | nil => cases hmem
  | cons p l ih =>
    obtain ⟨hfirst, hrest⟩ := List.nodup_cons.mp hnodup
    obtain rfl | hmem := List.mem_cons.mp hmem
    · exact (getReg_setRegs_of_notMem hfirst _).trans (s.getReg_setReg_same r v)
    · exact ih hrest hmem (s.setReg p.1 p.2)

/-- The last part of a launch: the flag, if the host sets one. -/
def setFlag (o : Option Bool) (s : State) : State :=
  match o with
  | some b => s.setOverflow b
  | none => s

/-- The loads of a launch, code sections first. -/
def loadSections (l : Launch) : Option State := do
  let s ← l.codeSections.foldlM (fun s sec => s.loadCodeSection sec.1 sec.2) State.reset
  l.dataSections.foldlM (fun s sec => s.loadDataSection sec.1 sec.2) s

theorem launch_eq (l : Launch) :
    launch l = (loadSections l).map fun s => setFlag l.overflow (setRegs l.regs (s.setPC l.entry)) := by
  unfold launch loadSections
  cases l.codeSections.foldlM (fun s sec => s.loadCodeSection sec.1 sec.2) State.reset with
  | none => rfl
  | some s =>
    cases h : l.dataSections.foldlM (fun s sec => s.loadDataSection sec.1 sec.2) s with
    | none => simp [h]
    | some t => simp [h]; rfl

theorem launching_of_loadSections {l : Launch} (h : loadSections l = some s) : Launching s := by
  obtain ⟨s1, hcode, hdata⟩ := Option.bind_eq_some_iff.mp h
  have h1 : Launching s1 := foldlM_keeps (fun _ _ _ => Launching.loadCodeSection) _ launching_reset hcode
  exact foldlM_keeps (fun _ _ _ => Launching.loadDataSection) _ h1 hdata

/-- The setters write the pc, registers and V only. -/
theorem setters_frame (o : Option Bool) (l : List (Reg × Int)) (pc : Word) (s : State) :
    ∃ v, setFlag o (setRegs l (s.setPC pc)) =
      { s with pc := pc, regs := (setRegs l (s.setPC pc)).regs, v := v } := by
  rw [setRegs_frame]
  cases o with
  | none => exact ⟨s.v, rfl⟩
  | some b => exact ⟨b, rfl⟩

theorem getReg_setFlag (o : Option Bool) (s : State) (r : Reg) : (setFlag o s).getReg r = s.getReg r := by
  cases o <;> rfl

end

/-- Settles O58: the loads give a launching state, and the setters after them write pc, registers and V only. -/
theorem aLaunchLeavesWhatTheHostSetUp : Obligations.ALaunchLeavesWhatTheHostSetUp := by
  intro l s h
  rw [launch_eq] at h
  obtain ⟨s0, hload, rfl⟩ := Option.map_eq_some_iff.mp h
  obtain ⟨hinv, hout, herr, hexit, hhalt⟩ := launching_of_loadSections hload
  have hregs (hnodup : (l.regs.map Prod.fst).Nodup) (r : Reg) (v : Int) (hmem : (r, v) ∈ l.regs) :
      ((setFlag l.overflow (setRegs l.regs (s0.setPC l.entry))).getReg r).toNat = (v % 65536).toNat := by
    rw [getReg_setFlag, getReg_setRegs hnodup hmem, toNat_trunc16]
  have hflag (b : Bool) (hb : l.overflow = some b) :
      (setFlag l.overflow (setRegs l.regs (s0.setPC l.entry))).getOverflow = b := by
    rw [hb]; rfl
  obtain ⟨v, hframe⟩ := setters_frame l.overflow l.regs l.entry s0
  refine ⟨?inv, ?pc, hregs, hflag, ?stdout, ?stderr, ?exit, ?halted⟩
  case inv => rw [hframe]; exact hinv
  case pc => rw [hframe]
  case stdout => rw [hframe]; exact hout
  case stderr => rw [hframe]; exact herr
  case exit => rw [hframe]; exact if_neg (by simp [hexit])
  case halted => rw [hframe]; exact hhalt

end Sys2Proof.Machine
end
